-- ==== Sys2Proof/Word.lean ====
section
/-! DEFINITION. The word types of the block: the byte of the serial side and the 32-bit word of the host port
(spec/00_scope.md R9, R10). Every value is unsigned and bit 0 is the least-significant bit (R10). -/

namespace Sys2Proof

/-- One framed byte, bit 7 the most significant (R9: BYTE_BITS = 8). -/
abbrev Byte := BitVec 8

/-- One host word (R9: HOST_DATA_BITS = 32). -/
abbrev Word := BitVec 32

/-- A slave register address (R9: ADDR_BITS = 6). -/
abbrev RegAddr := BitVec 6

/-- A 4-bit field of the command word: OP or CNT (R70). -/
abbrev Nibble := BitVec 4

end Sys2Proof
end

