-- ==== Sys2Proof/Config.lean ====
section
/-! DEFINITION. What is fixed for one block and what the spec leaves open (spec/00_scope.md R9,
spec/92_eei_decisions.md D3, D6, D30, spec/93_implementation_defined.md section 1): the constants of the parameter
table, the integrator's parameter STEP_CYCLES as plain data, and the free values, which have no body. -/

namespace Sys2Proof.Config

/-- R9: the bit OR-ed into the address byte of a write. -/
def writeFlag : Byte := 0x80#8

/-- R9: CNT_MAX, the largest READ_REGS count, equal to RX_DEPTH. -/
def cntMax : Nibble := 8#4

/-- The integrator's parameter STEP_CYCLES, an integer >= 1 (R9, OPEN; D3). It is held as STEP_CYCLES - 1, the last
value TICK counts to (R35), so that a parameter below 1 cannot be written. -/
structure Params where
  lastTick : Nat
deriving DecidableEq, Repr

/-- STEP_CYCLES: system clock cycles per micro-step (R9, R35). -/
def Params.stepCycles (p : Params) : Nat := p.lastTick + 1

/-- The width of TICK: ceil(log2(STEP_CYCLES)) bits, at least 1 (R25). -/
def Params.tickBits (p : Params) : Nat :=
  if p.lastTick = 0 then 1 else Nat.log2 p.lastTick + 1

/-- The MISO level of a SAMPLE for which the slave agent of the state has supplied no level: a free input, any bit
(R95; U3, U4, U8: 'any value'). Free value: no body; assumption log entry 3. -/
opaque freeMiso : Nat → Bool

/-- The level of `h_rdata` at an edge at which the spec gives it no value: no access, a write access, or rst = 1
(R52, R180; U2: 'any value'). Free value: no body; assumption log entry 4. -/
opaque freeRdata : Nat → Word

/-- The level of the j-th SAMPLE of a read from an address by an echo slave harness that nothing is known of, because a
reset has cut it short or it has been on undriven lines, from the registers it had before, what came over the lines since
(none: undriven), the address and j: any level (R140, R189; U5, U6: 'any value'). Free value: no body; assumption log
entry 13. -/
opaque unknownSlaveLevel : Vector Byte 64 → List (Option Bool) → BitVec 6 → Nat → Bool

/-- HOST_BASE: where a platform's bus places the four host registers (R51, D6, U10). A parameter of the platform: the
block decodes only the 2-bit register index and nothing in this model reads the base. -/
opaque hostBase : Nat

end Sys2Proof.Config
end

