-- ==== Sys2Proof/Syntax.lean ====
section
/-! DEFINITION. The commands: one constructor per row of spec/opcode_table.json (spec/30_encoding.md R72). The operands
are the variable fields of R73, at the widths of R70. -/

namespace Sys2Proof

/-- The five host commands (R3, R72). -/
inductive Instr where
  /-- SEND_BYTE #data: transmit one byte with no select framing (R101). -/
  | sendByte (data : Byte)
  /-- RECV_BYTE: receive one byte with no select framing (R102). -/
  | recvByte
  /-- WRITE_REG addr, #data: write one slave register (R121). -/
  | writeReg (addr : RegAddr) (data : Byte)
  /-- READ_REGS addr, count: read `count` consecutive slave registers (R125). -/
  | readRegs (addr : RegAddr) (count : Nibble)
  /-- RELEASE: give up the lines until reset (R140). -/
  | release
deriving DecidableEq, Repr

end Sys2Proof
end

