-- ==== Sys2Proof/WellFormed.lean ====
section
/-! DEFINITION. The one check on a command's operands that their widths do not make: a READ_REGS count is 0 to 8
(spec/30_encoding.md R73, R74, R76). -/

namespace Sys2Proof

/-- The operands are ones a well formed word can carry (R73). -/
def Instr.wf : Instr → Bool
  | .sendByte _ => true
  | .recvByte => true
  | .writeReg _ _ => true
  | .readRegs _ count => count ≤ Config.cntMax
  | .release => true

/-- `Instr.wf` as a proposition. -/
abbrev Instr.WellFormed (i : Instr) : Prop := i.wf = true

end Sys2Proof
end

