-- ==== Sys2Proof/Decode.lean ====
section
/-! DEFINITION. The command word: its fields (spec/30_encoding.md R70), the total decoder (R77), the rows of the opcode
table (R73), the encoder (R80) and the assembler's operand check (R78, R80). -/

namespace Sys2Proof

/-! ### Fields (R70) -/

/-- OP, bits 31:28. -/
def opField (w : Word) : Nibble := w.extractLsb' 28 4
/-- CNT, bits 27:24. -/
def cntField (w : Word) : Nibble := w.extractLsb' 24 4
/-- RSV, bits 23:14, must be 0. -/
def rsvField (w : Word) : BitVec 10 := w.extractLsb' 14 10
/-- ADDR, bits 13:8. -/
def addrField (w : Word) : RegAddr := w.extractLsb' 8 6
/-- DATA, bits 7:0. -/
def dataField (w : Word) : Byte := w.extractLsb' 0 8
/-- Bits 27:0, everything but the opcode. -/
def belowOp (w : Word) : BitVec 28 := w.extractLsb' 0 28

/-! ### Decoder (R77) -/

/-- What a command word decodes to: a command or the reason it has none (R77). -/
inductive Decoded where
  | cmd (i : Instr)
  /-- Reserved opcode, or a must-be-zero field that is not zero (R75). -/
  | illegal
  /-- READ_REGS, otherwise well formed, with CNT in 9..15 (R76). -/
  | badCount
deriving DecidableEq, Repr

/-- R77, case by case. Illegal is checked before BadCount. -/
def decode (w : Word) : Decoded :=
  match (opField w).toNat with
  | 1 => if cntField w = 0 ∧ rsvField w = 0 ∧ addrField w = 0 then .cmd (.sendByte (dataField w)) else .illegal
  | 2 => if belowOp w = 0 then .cmd .recvByte else .illegal
  | 3 => if cntField w = 0 ∧ rsvField w = 0 then .cmd (.writeReg (addrField w) (dataField w)) else .illegal
  | 4 =>
    if rsvField w = 0 ∧ dataField w = 0 then
      if cntField w ≤ Config.cntMax then .cmd (.readRegs (addrField w) (cntField w)) else .badCount
    else .illegal
  | 5 => if belowOp w = 0 then .cmd .release else .illegal
  | _ => .illegal

/-- The instruction the decoder reads from an instruction of `nbits` bits with value `w`, every higher bit 0. The one
32-bit word numbers its bits as the opcode table does (R70, R71). -/
def decodeTableWord (nbits w : Nat) : Option Instr :=
  match decode (BitVec.ofNat 32 (w % 2 ^ nbits)) with
  | .cmd i => some i
  | .illegal => none
  | .badCount => none

/-! ### Rows of the opcode table (R73) -/

/-- One row: its mnemonic, match and mask. -/
structure Row where
  mnemonic : String
  matchBits : Word
  mask : Word
deriving DecidableEq, Repr

/-- The table of R73. -/
def rows : List Row :=
  [ ⟨"SEND_BYTE", 0x10000000#32, 0xFFFFFF00#32⟩,
    ⟨"RECV_BYTE", 0x20000000#32, 0xFFFFFFFF#32⟩,
    ⟨"WRITE_REG", 0x30000000#32, 0xFFFFC000#32⟩,
    ⟨"READ_REGS", 0x40000000#32, 0xF0FFC0FF#32⟩,
    ⟨"RELEASE", 0x50000000#32, 0xFFFFFFFF#32⟩ ]

/-- The mnemonic of a command, as the opcode table spells it. -/
def Instr.mnemonic : Instr → String
  | .sendByte _ => "SEND_BYTE"
  | .recvByte => "RECV_BYTE"
  | .writeReg _ _ => "WRITE_REG"
  | .readRegs _ _ => "READ_REGS"
  | .release => "RELEASE"

/-! ### Encoder (R80) -/

/-- `Encode` of R80, formula by formula. -/
def encode : Instr → Word
  | .sendByte d => 0x10000000#32 ||| d.setWidth 32
  | .recvByte => 0x20000000#32
  | .writeReg a d => 0x30000000#32 ||| (a.setWidth 32 <<< 8) ||| d.setWidth 32
  | .readRegs a n => 0x40000000#32 ||| (n.setWidth 32 <<< 24) ||| (a.setWidth 32 <<< 8)
  | .release => 0x50000000#32

/-! ### Assembler (R78, R80) -/

/-- A command as written in assembler text: the operands are numbers of any size (R78), and the pseudo-instructions
READ_REG and NOP_CMD of R80 stand beside the five mnemonics. -/
inductive Asm where
  | sendByte (data : Nat)
  | recvByte
  | writeReg (addr data : Nat)
  | readRegs (addr count : Nat)
  | release
  | readReg (addr : Nat)
  | nopCmd
deriving DecidableEq, Repr

/-- Assemble one command. An operand outside its range is refused, not truncated (R78); READ_REG addr is READ_REGS
addr, 1, and NOP_CMD has no expansion and is refused (R80). -/
def assemble : Asm → Option Instr
  | .sendByte d => if d ≤ 255 then some (.sendByte (BitVec.ofNat 8 d)) else none
  | .recvByte => some .recvByte
  | .writeReg a d => if a ≤ 63 ∧ d ≤ 255 then some (.writeReg (BitVec.ofNat 6 a) (BitVec.ofNat 8 d)) else none
  | .readRegs a n => if a ≤ 63 ∧ n ≤ 8 then some (.readRegs (BitVec.ofNat 6 a) (BitVec.ofNat 4 n)) else none
  | .release => some .release
  | .readReg a => if a ≤ 63 then some (.readRegs (BitVec.ofNat 6 a) 1) else none
  | .nopCmd => none

end Sys2Proof
end

