-- ==== Sys2Proof/Machine/State.lean ====
section
/-! DEFINITION. The state of the machine: the block's own record (spec/10_state.md R25) and, beside it, what its
environment presents to it, as plain data (spec/00_scope.md R13: the host and the slave are agents outside the block
and their actions are free inputs). -/

namespace Sys2Proof.Machine

/-! ### Why a step can stop -/

/-- The one way a step can stop. The spec gives the block no fault and no trap (R150, R153). -/
inductive Fault where
  /-- Raised by a micro-step (R97) of a state with BUSY = 1 whose UPC is outside the script of its latched command.
  R33 and R91 say that no run from reset reaches such a state, and R181 covers no other run. Safe: the model stops
  where the spec says nothing. Assumption log entry 6. -/
  | noMicroOp
deriving DecidableEq, Repr

/-- The reasons the model gives an instruction no meaning. A command the block turns away is no refusal of this kind:
it is a next state with ERR = 1 (R150). -/
inductive Refusal where
  /-- An instruction whose meaning is not written. Raised by no arm of `exec`. Safe. -/
  | notModelled (mnemonic : String)
deriving DecidableEq, Repr

/-! ### Small types of the block -/

/-- Why the block refuses a command write (R29, R152). -/
inductive Reason where
  | illegal
  | count
  | busy
  | released
deriving DecidableEq, Repr

/-- The level on a pin: driven low, driven high, or undriven (R12). -/
inductive Level where
  | low
  | high
  | z
deriving DecidableEq, Repr

/-- The four host registers (R51). -/
inductive HostReg where
  | cmd
  | status
  | rxdata0
  | rxdata1
deriving DecidableEq, Repr

/-- One line operation of the sequencer: the five constructors of R90. -/
inductive MicroOp where
  /-- setLine(select, v) (R92). -/
  | cs (v : Bool)
  /-- setLine(clock, v) (R93). -/
  | clk (v : Bool)
  /-- setLine(data-out, v) (R94). -/
  | dout (v : Bool)
  /-- readLine(data-in), shifted into SHREG; `last` marks the eighth bit of the byte of slot `k` (R95). -/
  | sample (k : Fin 8) (last : Bool)
  /-- Release the lines (R96). -/
  | rel
deriving DecidableEq, Repr

/-- The operand fields of a command word, as they are latched at acceptance (R32). -/
structure Latch where
  op : Nibble
  cnt : Nibble
  addr : RegAddr
  data : Byte
deriving DecidableEq, Repr

/-! ### What the host and the platform present at an edge -/

/-- One host port access, `h_valid` = 1 (R22, R52). -/
inductive Access where
  | read (r : HostReg)
  | write (r : HostReg) (w : Word)
deriving DecidableEq, Repr

/-- What the port and the reset input hold at one rising edge of `clk` (R20, R22), or a POLL, which stands for one
edge or more. -/
inductive EdgeInput where
  /-- rst = 0, h_valid = 0. -/
  | idle
  /-- rst = 0, h_valid = 1. -/
  | access (a : Access)
  /-- The host's POLL (R80): rst = 0 and a STATUS read at every edge until a read returns BUSY = 0. -/
  | poll
  /-- rst = 1, with the access presented at that edge, if any (R180). -/
  | rst (presented : Option Access)
deriving DecidableEq, Repr

/-! ### The block (R25) -/

/-- The complete state of the block: the record of R25, field by field. A 1-bit field is a Bool, true for 1. -/
structure Block where
  /-- CS_N_Q, the select output latch (R24). -/
  csNQ : Bool
  /-- SCLK_Q, the clock output latch (R24). -/
  sclkQ : Bool
  /-- MOSI_Q, the data-out output latch (R24). -/
  mosiQ : Bool
  /-- RELEASED: the lines are given up (R26). -/
  released : Bool
  /-- BUSY: a command is executing (R27). -/
  busy : Bool
  /-- DONE: the last accepted command has completed (R28). -/
  done : Bool
  /-- ERR: the last command write was refused (R29). -/
  err : Bool
  /-- ERRCODE: the reason for the refusal (R29). -/
  errcode : BitVec 3
  /-- RXBUF[0..7], the receive buffer (R30). -/
  rxbuf : Vector Byte 8
  /-- RXCNT, the number of bytes received (R31). -/
  rxcnt : BitVec 4
  /-- LOP, the latched opcode (R32). -/
  lop : Nibble
  /-- LADDR, the latched address (R32). -/
  laddr : RegAddr
  /-- LDATA, the latched data byte (R32). -/
  ldata : Byte
  /-- LCNT, the latched count (R32). -/
  lcnt : Nibble
  /-- SHREG, the receive shift register (R34). -/
  shreg : Byte
  /-- UPC, the micro-step index into the script (R33). -/
  upc : BitVec 8
  /-- TICK, cycles elapsed in the current micro-step (R35). Its width depends on STEP_CYCLES, so it is a number that
  the invariant keeps below STEP_CYCLES; assumption log entry 7. -/
  tick : Nat
deriving DecidableEq, Repr

/-- The reset values of R39. -/
def Block.reset : Block where
  csNQ := true
  sclkQ := false
  mosiQ := false
  released := false
  busy := false
  done := false
  err := false
  errcode := 0
  rxbuf := Vector.replicate 8 0
  rxcnt := 0
  lop := 0
  laddr := 0
  ldata := 0
  lcnt := 0
  shreg := 0
  upc := 0
  tick := 0

/-! ### The whole state -/

/-- The state of the machine. -/
structure State where
  /-- The block's own record (R25). -/
  block : Block
  /-- The level of `h_rdata` in the cycle that ended at the last edge (R22, R52). -/
  rdata : Word
  /-- The model's own field: the integrator's parameter STEP_CYCLES (R9), which no step changes; log entry 2. -/
  params : Config.Params
  /-- The model's own field: what the host and the platform present at the coming edges, the next edge first; after
  the last entry the host is idle and rst is 0; log entry 1. -/
  port : List EdgeInput
  /-- The model's own field: the MISO levels the slave presents at the coming SAMPLE micro-steps, the next first; after
  the last entry the level is a free value; log entry 3. -/
  misoIn : List Bool
  /-- The model's own field: a counter that every step advances, so that every free value drawn is a fresh one. -/
  draws : Nat
deriving DecidableEq, Repr

/-- The machine right after a reset edge, for one value of the integrator's parameter: the block as R39 gives it, and
nothing presented by the environment. -/
def State.resetWith (p : Config.Params) : State where
  block := Block.reset
  rdata := Config.freeRdata 0
  params := p
  port := []
  misoIn := []
  draws := 1

/-- The machine right after reset. STEP_CYCLES is 1 here: a DESIGN CHOICE of the model, log entry 2; no statement rests
on that value. -/
def State.reset : State := State.resetWith ⟨0⟩

end Sys2Proof.Machine
end

