-- ==== Sys2Proof/Machine/Operands.lean ====
section
/-! DEFINITION. Operand assembly and bit placement: the bits of a byte in wire order (spec/20_memory.md R53), the
address bytes (spec/42_register_sequencer.md R122, R123), the receive shift (spec/40_line_ops.md R95), the host
register indices (R51), the RXDATA lanes (R55) and the pins (spec/10_state.md R24). -/

namespace Sys2Proof.Machine

/-! ### Bytes on the wire -/

/-- The bits of `v`, most-significant first (R53, R100). -/
def wireBits (v : Byte) : List Bool :=
  [v.getLsbD 7, v.getLsbD 6, v.getLsbD 5, v.getLsbD 4, v.getLsbD 3, v.getLsbD 2, v.getLsbD 1, v.getLsbD 0]

/-- AB_w = 0x80 | zext_8(A), the address byte of a write (R122). -/
def writeAddressByte (a : RegAddr) : Byte := Config.writeFlag ||| a.setWidth 8

/-- AB_r = zext_8(A), the address byte of a read (R123). -/
def readAddressByte (a : RegAddr) : Byte := a.setWidth 8

/-- ((SHREG << 1) | b) mod 256 (R95, R109). -/
def shiftIn (sh : Byte) (b : Bool) : Byte := (sh <<< 1) ||| (BitVec.ofBool b).setWidth 8

/-- The receive slots 0, 1, ..., n-1 of a receive of `n` bytes (R126). There are eight slots. -/
def slots (n : Nat) : List (Fin 8) := ([0, 1, 2, 3, 4, 5, 6, 7] : List (Fin 8)).take n

/-! ### Latched fields (R32, R151) -/

/-- The latched fields of a command word. -/
def latchOfWord (w : Word) : Latch := ⟨opField w, cntField w, addrField w, dataField w⟩

/-- The latched fields of a block. -/
def Block.latch (b : Block) : Latch := ⟨b.lop, b.lcnt, b.laddr, b.ldata⟩

/-! ### Host registers (R22, R38, R51, R55) -/

/-- The register at an index; all four indices are mapped (R51). -/
def HostReg.ofIndex (i : BitVec 2) : HostReg :=
  match i.toNat with
  | 0 => .cmd
  | 1 => .status
  | 2 => .rxdata0
  | _ => .rxdata1

/-- The index of a register (R51). -/
def HostReg.index : HostReg → BitVec 2
  | .cmd => 0
  | .status => 1
  | .rxdata0 => 2
  | .rxdata1 => 3

/-- The access that the port's four input signals present in a cycle (R22, R52). -/
def Access.ofSignals (hValid hWrite : Bool) (hIndex : BitVec 2) (hWdata : Word) : Option Access :=
  if hValid then
    if hWrite then some (.write (HostReg.ofIndex hIndex) hWdata) else some (.read (HostReg.ofIndex hIndex))
  else none

/-- What the edge sees of the block's input signals (R20, R22). -/
def EdgeInput.ofSignals (rst hValid hWrite : Bool) (hIndex : BitVec 2) (hWdata : Word) : EdgeInput :=
  let presented := Access.ofSignals hValid hWrite hIndex hWdata
  if rst then .rst presented
  else
    match presented with
    | none => .idle
    | some a => .access a

/-- Four receive entries as a host word, the entry of lowest index in bits 7:0 (R55). -/
def lanes (b3 b2 b1 b0 : Byte) : Word := b3 ++ b2 ++ b1 ++ b0

/-- RXDATA0 = {RXBUF[3], RXBUF[2], RXBUF[1], RXBUF[0]} (R38). -/
def rxdata0Word (b : Block) : Word := lanes b.rxbuf[3] b.rxbuf[2] b.rxbuf[1] b.rxbuf[0]

/-- RXDATA1 = {RXBUF[7], RXBUF[6], RXBUF[5], RXBUF[4]} (R38). -/
def rxdata1Word (b : Block) : Word := lanes b.rxbuf[7] b.rxbuf[6] b.rxbuf[5] b.rxbuf[4]

/-! ### Pins (R12, R24) -/

/-- The level of a latch that is driven. -/
def drivenLevel (v : Bool) : Level := if v then .high else .low

/-- The level of an output pin: its latch while the lines are owned, undriven once released (R24). -/
def pinLevel (b : Block) (latch : Bool) : Level := if b.released then .z else drivenLevel latch

/-- The three output pins. -/
structure Pins where
  csN : Level
  sclk : Level
  mosi : Level
deriving DecidableEq, Repr

/-- The output pins of a block (R24). -/
def pins (b : Block) : Pins := ⟨pinLevel b b.csNQ, pinLevel b b.sclkQ, pinLevel b b.mosiQ⟩

end Sys2Proof.Machine
end

