-- ==== Sys2Proof/Machine/Flags.lean ====
section
/-! DEFINITION. The flags BUSY, DONE, ERR and RELEASED, the code ERRCODE and the status word (spec/10_state.md R26 to
R29, R37, R38). -/

namespace Sys2Proof.Machine

/-- The ERRCODE value of a reason (R29). -/
def Reason.code : Reason → BitVec 3
  | .illegal => 1
  | .count => 2
  | .busy => 3
  | .released => 4

/-- `refuse(code)`: ERR <- 1; ERRCODE <- code, and nothing else (R151). -/
def Block.refuse (b : Block) (r : Reason) : Block := { b with err := true, errcode := r.code }

/-- The DONE <- 0 of a command write made while BUSY = 0 (R28, R151). -/
def Block.clearDone (b : Block) : Block := { b with done := false }

/-- The flag writes of an acceptance: BUSY <- 1, ERR <- 0, ERRCODE <- 0 (R151). -/
def Block.flagsAccepted (b : Block) : Block := { b with busy := true, err := false, errcode := 0 }

/-- The completion of a command: BUSY <- 0; DONE <- 1; UPC <- 0 (R97). -/
def Block.complete (b : Block) : Block := { b with busy := false, done := true, upc := 0 }

/-- The status word: BUSY in bit 0, DONE in 1, ERR in 2, RELEASED in 3, ERRCODE in 6:4, RXCNT in 11:8; bits 7 and 31:12
read 0 (R38). -/
def statusWord (b : Block) : Word :=
  0#20 ++ b.rxcnt ++ 0#1 ++ b.errcode ++ BitVec.ofBool b.released ++ BitVec.ofBool b.err ++ BitVec.ofBool b.done ++
    BitVec.ofBool b.busy

/-- The value of a host register, computed from the state before the edge; CMD reads 0 (R38, R51, R52). -/
def readReg (b : Block) : HostReg → Word
  | .cmd => 0
  | .status => statusWord b
  | .rxdata0 => rxdata0Word b
  | .rxdata1 => rxdata1Word b

end Sys2Proof.Machine
end

