-- ==== Sys2Proof/Machine/Ops.lean ====
section
/-! DEFINITION. The shared operations of the block: the acceptance and the refusal of a command write
(spec/60_exceptions.md R150 to R152) and the effect of one micro-operation (spec/40_line_ops.md R92 to R96). The
block's one exceptional event is the refusal: `commandWrite` is the one place that takes it, and there is no return
from it (R157, R158). -/

namespace Sys2Proof.Machine

/-! ### Acceptance and refusal (R151) -/

/-- The latch writes of an acceptance (R32, R151). -/
def Block.setLatch (b : Block) (l : Latch) : Block :=
  { b with lop := l.op, lcnt := l.cnt, laddr := l.addr, ldata := l.data }

/-- RXBUF[j] <- 0x00 for j = 0..7; RXCNT <- 0 (R102, R125, R151). -/
def Block.clearRx (b : Block) : Block := { b with rxbuf := Vector.replicate 8 0, rxcnt := 0 }

/-- The common acceptance effects but for DONE, which `commandWrite` clears (R151). -/
def Block.accept (b : Block) (l : Latch) : Block := { (b.setLatch l).flagsAccepted with upc := 0, tick := 0 }

/-- The acceptance of a receiving command, which clears the receive buffer as well (R151). -/
def Block.acceptReceive (b : Block) (l : Latch) : Block := (b.accept l).clearRx

/-- The second check of a command write: refused when RELEASED = 1, whatever the word is (R151, R152). -/
def Block.refuseIfReleased (b : Block) (otherwise : Block → Block) : Block :=
  if b.released then b.refuse .released else otherwise b

/-- A command write at its edge, in the order of R152: refused while BUSY = 1 with DONE untouched; else DONE <- 0,
refused when RELEASED = 1, and else `otherwise`, which accepts the command or refuses its word. -/
def Block.commandWrite (b : Block) (otherwise : Block → Block) : Block :=
  if b.busy then b.refuse .busy else b.clearDone.refuseIfReleased otherwise

/-- `commandWrite` on the block of a state; the environment's fields are untouched. -/
def State.commandWrite (s : State) (otherwise : Block → Block) : State :=
  { s with block := s.block.commandWrite otherwise }

/-! ### Micro-operations (R92 to R96) -/

/-- The receive buffer with entry `k` written (R95). -/
def Block.commitByte (b : Block) (k : Fin 8) (v : Byte) : Block :=
  { b with rxbuf := b.rxbuf.set k v, rxcnt := BitVec.ofNat 4 (k.val + 1) }

/-- SAMPLE(k, last) with the level `m` on MISO (R95). -/
def Block.sample (b : Block) (k : Fin 8) (last m : Bool) : Block :=
  let sh := shiftIn b.shreg m
  if last then { b with shreg := sh }.commitByte k sh else { b with shreg := sh }

/-- Perform one micro-operation with the level `m` on MISO (R92 to R96). -/
def perform (op : MicroOp) (m : Bool) (b : Block) : Block :=
  match op with
  | .cs v => { b with csNQ := v }
  | .clk v => { b with sclkQ := v }
  | .dout v => { b with mosiQ := v }
  | .sample k last => b.sample k last m
  | .rel => { b with released := true }

/-- Does the micro-operation read MISO (R95)? -/
def MicroOp.samples : MicroOp → Bool
  | .cs _ => false
  | .clk _ => false
  | .dout _ => false
  | .sample _ _ => true
  | .rel => false

end Sys2Proof.Machine
end

