-- ==== Sys2Proof/Machine/ByteFramer.lean ====
section
/-! DEFINITION. The byte framer: the transmit and receive sequences of one byte (spec/41_byte_framer.md R100, R103) and
the commands SEND_BYTE and RECV_BYTE (R101, R102). A command's meaning is what its write to CMD does at its edge; the
micro-steps of its script follow (Machine/Sequencer.lean). -/

namespace Sys2Proof.Machine

/-- One transmitted bit: CLK(1), DOUT(v), CLK(0) (R100). -/
def sendBit (v : Bool) : List MicroOp := [.clk true, .dout v, .clk false]

/-- sendBits(V), 24 micro-operations, most-significant bit first (R100). -/
def sendBits (v : Byte) : List MicroOp := (wireBits v).flatMap sendBit

/-- One received bit: CLK(1), SAMPLE(k, last), CLK(0) (R103). -/
def recvBit (k : Fin 8) (last : Bool) : List MicroOp := [.clk true, .sample k last, .clk false]

/-- recvBits(k), 24 micro-operations; the eighth SAMPLE is the last (R103). -/
def recvBits (k : Fin 8) : List MicroOp :=
  [false, false, false, false, false, false, false, true].flatMap (recvBit k)

/-- The script of SEND_BYTE (R91, R101). -/
def sendByteScript (data : Byte) : List MicroOp := sendBits data

/-- The script of RECV_BYTE (R91, R102). -/
def recvByteScript : List MicroOp := recvBits 0

/-- SEND_BYTE #data (R101): only the common acceptance effects. -/
def execSendByte (data : Byte) (s : State) : Host.Outcome State Fault Refusal :=
  .next (s.commandWrite fun b => b.accept ⟨0x1#4, 0#4, 0#6, data⟩)

/-- RECV_BYTE (R102): the common acceptance effects, and the receive buffer cleared. -/
def execRecvByte (s : State) : Host.Outcome State Fault Refusal :=
  .next (s.commandWrite fun b => b.acceptReceive ⟨0x2#4, 0#4, 0#6, 0#8⟩)

end Sys2Proof.Machine
end

