-- ==== Sys2Proof/Machine/Lifecycle.lean ====
section
/-! DEFINITION. Line ownership: the script and the acceptance of RELEASE (spec/43_lifecycle.md R140). -/

namespace Sys2Proof.Machine

/-- The script of RELEASE, one micro-operation (R140). -/
def releaseScript : List MicroOp := [.rel]

/-- RELEASE (R140): only the common acceptance effects. RELEASED is set by the script's REL (R96), and a RELEASE
written once the lines are released is refused (R141). -/
def execRelease (s : State) : Host.Outcome State Fault Refusal :=
  .next (s.commandWrite fun b => b.accept ⟨0x5#4, 0#4, 0#6, 0#8⟩)

end Sys2Proof.Machine
end

