-- ==== Sys2Proof/Machine/RegisterSequencer.lean ====
section
/-! DEFINITION. The register sequencer: the scripts and the acceptance of WRITE_REG and READ_REGS
(spec/42_register_sequencer.md R121, R125, R126). -/

namespace Sys2Proof.Machine

/-- The script of WRITE_REG: one select assertion around the address byte and the data byte (R121). -/
def writeRegScript (addr : RegAddr) (data : Byte) : List MicroOp :=
  [.cs false] ++ sendBits (writeAddressByte addr) ++ sendBits data ++ [.cs true]

/-- The script of READ_REGS: one select assertion around the address byte and `count` received bytes (R126). -/
def readRegsScript (addr : RegAddr) (count : Nibble) : List MicroOp :=
  [.cs false] ++ sendBits (readAddressByte addr) ++ (slots count.toNat).flatMap recvBits ++ [.cs true]

/-- WRITE_REG addr, #data (R121): only the common acceptance effects. -/
def execWriteReg (addr : RegAddr) (data : Byte) (s : State) : Host.Outcome State Fault Refusal :=
  .next (s.commandWrite fun b => b.accept ⟨0x3#4, 0#4, addr, data⟩)

/-- READ_REGS addr, count (R125): the common acceptance effects and the receive buffer cleared; refused with COUNT when
the count is above 8 (R76). -/
def execReadRegs (addr : RegAddr) (count : Nibble) (s : State) : Host.Outcome State Fault Refusal :=
  .next (s.commandWrite fun b =>
    if count ≤ Config.cntMax then b.acceptReceive ⟨0x4#4, count, addr, 0#8⟩ else b.refuse .count)

end Sys2Proof.Machine
end

