-- ==== Sys2Proof/Machine/Dispatch.lean ====
section
/-! DEFINITION. `exec i`: what a write of command `i` to CMD does at its clock edge, one arm per constructor. -/

namespace Sys2Proof.Machine

def exec (i : Instr) (s : State) : Host.Outcome State Fault Refusal :=
  match i with
  | .sendByte data => Sys2Proof.Machine.execSendByte data s
  | .recvByte => Sys2Proof.Machine.execRecvByte s
  | .writeReg addr data => Sys2Proof.Machine.execWriteReg addr data s
  | .readRegs addr count => Sys2Proof.Machine.execReadRegs addr count s
  | .release => Sys2Proof.Machine.execRelease s

end Sys2Proof.Machine
end

