-- ==== Sys2Proof/Machine/Sequencer.lean ====
section
/-! DEFINITION. The micro-step engine: the script of the latched command (spec/40_line_ops.md R91), the micro-step
(R97) and the timer that paces it (spec/10_state.md R35). -/

namespace Sys2Proof.Machine

/-- The script of a command, a function of the latched fields alone (R91). A LOP outside 0x1 to 0x5 is latched by no
acceptance and has no script. -/
def script (l : Latch) : List MicroOp :=
  match l.op.toNat with
  | 1 => sendByteScript l.data
  | 2 => recvByteScript
  | 3 => writeRegScript l.addr l.data
  | 4 => readRegsScript l.addr l.cnt
  | 5 => releaseScript
  | _ => []

/-- The micro-operation that UPC names, if there is one (R97). -/
def Block.dueOp (b : Block) : Option MicroOp := (script b.latch)[b.upc.toNat]?

/-- UPC after a micro-operation: the completion after the last one of the script, else the next index (R97). -/
def Block.advance (b : Block) : Block :=
  if b.upc.toNat + 1 = (script b.latch).length then b.complete else { b with upc := b.upc + 1 }

/-- MicroStep(s, m) of R97: the due micro-operation with the level `m` on MISO, the completion or the next index, and
TICK <- 0. No micro-operation writes a latched field or UPC, so the end of the script is judged on the state before.
Nothing when UPC names no micro-operation. -/
def Block.microStep (m : Bool) (b : Block) : Option Block :=
  match b.dueOp with
  | none => none
  | some op => some { (perform op m b).advance with tick := 0 }

/-- The level on MISO at this micro-step, if it samples: what the slave presents, else a free value (R95). -/
def State.misoLevel (s : State) : Bool :=
  match s.misoIn with
  | m :: _ => m
  | [] => Config.freeMiso s.draws

/-- The slave's levels still to come after a micro-operation: a SAMPLE uses one (R13, R95). -/
def State.misoAfter (s : State) (op : MicroOp) : List Bool := if op.samples then s.misoIn.tail else s.misoIn

/-- A micro-step of the machine: the block's, with the slave's level on MISO. -/
def State.microStep (s : State) : Host.Outcome State Fault Refusal :=
  match s.block.dueOp with
  | none => .fault .noMicroOp
  | some op =>
    .next { s with
      block := { (perform op s.misoLevel s.block).advance with tick := 0 }
      misoIn := s.misoAfter op }

/-- One cycle of a micro-step that is not its last: TICK increments (R35). -/
def State.tickUp (s : State) : State := { s with block := { s.block with tick := s.block.tick + 1 } }

/-- The sequencer at an edge at which BUSY = 1 before the edge: a micro-step when TICK = STEP_CYCLES - 1, else TICK
increments (R35). -/
def State.sequence (s : State) : Host.Outcome State Fault Refusal :=
  if s.block.tick = s.params.lastTick then s.microStep else .next s.tickUp

end Sys2Proof.Machine
end

