-- ==== Sys2Proof/Machine/HostPort.lean ====
section
/-! DEFINITION. One rising edge of `clk`: the host port (spec/20_memory.md R52), the reset
(spec/70_reset_and_hazards.md R180) and the sequencer, in the order of spec/60_exceptions.md R156: reset wins, a command
write is judged on the state before the edge, and a micro-step due at the edge is performed beside it. -/

namespace Sys2Proof.Machine

/-- What is presented at the coming edge: nothing, once the environment's list is used up. -/
def State.edgeInput (s : State) : EdgeInput :=
  match s.port with
  | [] => .idle
  | e :: _ => e

/-- What is presented at the edges after it. A POLL repeats until its STATUS read returns BUSY = 0 (R80). -/
def State.portAfter (s : State) : List EdgeInput :=
  match s.port with
  | [] => []
  | .poll :: rest => if s.block.busy then s.port else rest
  | _ :: rest => rest

/-- `h_rdata` in the cycle of the edge: the register of a read, from the state before the edge (R52); a free value
where nothing is read (U2). -/
def State.rdataAt (s : State) : EdgeInput → Word
  | .access (.read r) => readReg s.block r
  | .poll => readReg s.block .status
  | .access (.write _ _) => Config.freeRdata s.draws
  | .idle => Config.freeRdata s.draws
  | .rst _ => Config.freeRdata s.draws

/-- The environment's part of an edge: its lists move on, `h_rdata` takes its level, a fresh draw comes up. -/
def State.passEdge (s : State) : State :=
  { s with rdata := s.rdataAt s.edgeInput, port := s.portAfter, draws := s.draws + 1 }

/-- The reset edge: every field of the block takes its reset value and nothing else happens (R20, R180). -/
def State.resetEdge (s : State) : State := { s with block := Block.reset }

/-- HostWrite(0, w): Accept(w) of R151, by the meaning of the command that `w` decodes to or by the refusal of a word
that decodes to none. -/
def writeCmd (w : Word) (s : State) : Host.Outcome State Fault Refusal :=
  match decode w with
  | .cmd i => exec i s
  | .illegal => .next (s.commandWrite fun b => b.refuse .illegal)
  | .badCount => .next (s.commandWrite fun b => b.refuse .count)

/-- A host access at its edge (R52): a read changes nothing, and a write to a register other than CMD is ignored. -/
def hostAccess (a : Access) (s : State) : Host.Outcome State Fault Refusal :=
  match a with
  | .read _ => .next s
  | .write .cmd w => writeCmd w s
  | .write .status _ => .next s
  | .write .rxdata0 _ => .next s
  | .write .rxdata1 _ => .next s

/-- HostRead(i), which is also MemRead(i, 4) (R11, R52): the value of the register of index `i`. -/
def hostRead (i : BitVec 2) (s : State) : Word := readReg s.block (HostReg.ofIndex i)

/-- HostWrite(i, w), which is also MemWrite(i, 4, w) (R11, R52). -/
def hostWrite (i : BitVec 2) (w : Word) (s : State) : Host.Outcome State Fault Refusal :=
  hostAccess (.write (HostReg.ofIndex i) w) s

/-- The sequencer's part of an edge after the host's: it acts when BUSY was 1 before the edge. A command write refused
because BUSY = 1 writes only ERR and ERRCODE, which the sequencer neither reads nor writes, so the two parts take effect
together (R156). -/
def sequenceAfter (busyBefore : Bool) (host : Host.Outcome State Fault Refusal) : Host.Outcome State Fault Refusal :=
  match host with
  | .next t => if busyBefore then t.sequence else .next t
  | .fault r => .fault r
  | .refused r => .refused r

/-- One rising edge of `clk`. -/
def clockEdge (s : State) : Host.Outcome State Fault Refusal :=
  match s.edgeInput with
  | .rst _ => .next s.passEdge.resetEdge
  | .idle => sequenceAfter s.block.busy (.next s.passEdge)
  | .poll => sequenceAfter s.block.busy (hostAccess (.read .status) s.passEdge)
  | .access a => sequenceAfter s.block.busy (hostAccess a s.passEdge)

end Sys2Proof.Machine
end

