-- ==== Sys2Proof/Machine/Step.lean ====
section
/-! DEFINITION. The step of the machine, one rising edge of `clk` (spec/10_state.md R20), and where it takes its next
command from: the host port (spec/20_memory.md R50: no command is fetched from memory). -/

namespace Sys2Proof.Machine

/-- One step: one rising edge of `clk`. -/
def step (s : State) : Host.Outcome State Fault Refusal := clockEdge s

/-- `s` with the command word of `nbits` bits and value `w`, every higher bit 0, presented to CMD at the next edge. -/
def State.withFetchWord (s : State) (nbits w : Nat) : State :=
  { s with port := .access (.write .cmd (BitVec.ofNat 32 (w % 2 ^ nbits))) :: s.port }

end Sys2Proof.Machine
end

