-- ==== Sys2Proof/Machine/Wire.lean ====
section
/-! DEFINITION. What the slave sees: the pins over a run of micro-steps, and the MOSI level at each falling edge of
SCLK, which is where a slave reads a transmitted bit (spec/41_byte_framer.md R105, spec/42_register_sequencer.md
R131). -/

namespace Sys2Proof.Machine

/-- The block after `n` micro-steps, with the level `miso j` on MISO at the j-th of them, counted from 0; none when UPC
names no micro-operation on the way. -/
def runMicro (miso : Nat → Bool) : Nat → Block → Option Block
  | 0, b => some b
  | n + 1, b => (b.microStep (miso 0)).bind (runMicro (fun j => miso (j + 1)) n)

/-- The block before and after each of `n` micro-steps, the first first. -/
def microTrace (miso : Nat → Bool) : Nat → Block → List Block
  | 0, b => [b]
  | n + 1, b =>
    match b.microStep (miso 0) with
    | none => [b]
    | some b' => b :: microTrace (fun j => miso (j + 1)) n b'

/-- The pins over `n` micro-steps. -/
def pinTrace (miso : Nat → Bool) (n : Nat) (b : Block) : List Pins := (microTrace miso n b).map pins

/-- SCLK falls from `p` to `q`. -/
def sclkFalls (p q : Pins) : Bool := p.sclk == .high && q.sclk == .low

/-- The MOSI level at each falling edge of SCLK, in order, whatever CS_N is (R105). -/
def fallingBits : List Pins → List Level
  | [] => []
  | [_] => []
  | p :: q :: rest => if sclkFalls p q then q.mosi :: fallingBits (q :: rest) else fallingBits (q :: rest)

/-- The MOSI level at each falling edge of SCLK while CS_N is low (R131). -/
def selectedBits : List Pins → List Level
  | [] => []
  | [_] => []
  | p :: q :: rest =>
    if sclkFalls p q && q.csN == .low then q.mosi :: selectedBits (q :: rest) else selectedBits (q :: rest)

/-- The block after `n` micro-steps with MOSI wired to MISO: each micro-step sees the level of the latch MOSI_Q before
it (R108). -/
def runWired : Nat → Block → Option Block
  | 0, b => some b
  | n + 1, b => (b.microStep b.mosiQ).bind (runWired n)

end Sys2Proof.Machine
end

