-- ==== Sys2Proof/Machine/Attached.lean ====
section
/-! DEFINITION. The attached device and the host's use of its bytes, as spec/60_exceptions.md section 4 gives them
(R171 to R176). They bind no behaviour of the block; nothing in `step` uses them. -/

namespace Sys2Proof.Machine.Attached

/-- The slave registers that the source reads, addresses 0 to 7 in order (R171). -/
inductive SlaveReg where
  | configuration | rtdMsb | rtdLsb | highFaultMsb | highFaultLsb | lowFaultMsb | lowFaultLsb | status
deriving DecidableEq, Repr

/-- The address of a slave register (R171). -/
def SlaveReg.address : SlaveReg → RegAddr
  | .configuration => 0
  | .rtdMsb => 1
  | .rtdLsb => 2
  | .highFaultMsb => 3
  | .highFaultLsb => 4
  | .lowFaultMsb => 5
  | .lowFaultLsb => 6
  | .status => 7

/-- The configuration byte of an acquisition (R172). -/
def acquireConfig : Byte := 0xB2#8

/-- The ADC code ({RXBUF[1], RXBUF[2]} >> 1), 15 bits (R174). -/
def adcCode (b : Block) : BitVec 15 := (b.rxbuf[1] ++ b.rxbuf[2]).extractLsb' 1 15

/-- The faults that the host reports from the status byte (R173, R175). -/
inductive RtdFault where
  | openCable | shortCable | overUnderVoltage
deriving DecidableEq, Repr

/-- Bits 7, 6 and 2 of the status byte in that order; a bit counts as set when it is not zero (R175). -/
def faultOf (status : Byte) : Option RtdFault :=
  if status.getLsbD 7 then some .openCable
  else if status.getLsbD 6 then some .shortCable
  else if status.getLsbD 2 then some .overUnderVoltage
  else none

/-! ### The echo slave (R176)

A slave model of the spec's own, one for test harnesses: it writes a byte to its register A on a write and returns
registers A, A+1, ... in order on a read (spec/95_test_vectors.md program P1). It is no part of the block. -/

/-- How a select assertion ends: with the CS(1) of its command (R130), or cut short by a reset (R189). -/
inductive SelectEnd where
  | completed | cut
deriving DecidableEq, Repr

/-- An echo slave: its registers, one for each 6-bit address (R50), or nothing known of them once a reset has cut a select
assertion short (R189, U6) or RELEASE has left the lines undriven (R140, U5). Of such a slave only what the free value of
its answers is applied to is kept: the registers before, and what has come over the lines since. -/
inductive EchoSlave where
  | holding (regs : Vector Byte 64)
  | unknown (before : Vector Byte 64) (heard : List (Option Bool))
deriving DecidableEq, Repr

/-- The byte of eight MOSI levels, most-significant first (R53). -/
def byteOfLevels (levels : List Level) : Byte := levels.foldl (fun v l => shiftIn v (l == .high)) 0

/-- A whole write as the slave reads it: an address byte with bit 7 set and one data byte (R131). -/
def wholeWrite (bits : List Level) : Bool := bits.length == 16 && (byteOfLevels (bits.take 8)).getLsbD 7

/-- A whole read as the slave reads it: an address byte with bit 7 clear and a number of further whole bytes (R131). -/
def wholeRead (bits : List Level) : Bool :=
  8 ≤ bits.length && bits.length % 8 == 0 && !(byteOfLevels (bits.take 8)).getLsbD 7

/-- What comes over a line: a bit, or none while it is undriven. -/
def lineBit : Level → Option Bool
  | .high => some true
  | .low => some false
  | .z => none

/-- The slave once nothing is known of it any more, after `levels` came over the lines: any outcome (U5, U6). -/
def EchoSlave.forget (e : EchoSlave) (levels : List Level) : EchoSlave :=
  match e with
  | .holding regs => .unknown regs (levels.map lineBit)
  | .unknown before heard => .unknown before (heard ++ levels.map lineBit)

/-- The slave after a select assertion that ended as `ended`, in which it read `bits` at the falling edges of SCLK. A
completed write puts its data byte in the register of the address byte's bits 5:0, and a completed read changes nothing.
After one that a reset cut short, wherever in it the reset came, nothing is known of the slave any more: R189 and U6 admit
any outcome. DESIGN CHOICE, assumption log entry 13: bit 6 of the address byte is ignored, and a completed assertion of
another form, which no command makes, is taken like a cut one. -/
def EchoSlave.hear (e : EchoSlave) (ended : SelectEnd) (bits : List Level) : EchoSlave :=
  match e, ended with
  | .unknown _ _, _ => e.forget bits
  | .holding _, .cut => e.forget bits
  | .holding regs, .completed =>
    if wholeWrite bits then
      .holding (regs.set ((byteOfLevels (bits.take 8)).toNat % 64) (byteOfLevels (bits.drop 8))
        (Nat.mod_lt _ (by decide)))
    else if wholeRead bits then e
    else e.forget bits

/-- The MISO levels at the SAMPLEs of a read of `n` registers from address `a`: the registers' bits, or any levels once
nothing is known of the slave (U5, U6). That the address wraps modulo 64 is a DESIGN CHOICE, assumption log entry 13. -/
def EchoSlave.levels (e : EchoSlave) (a : RegAddr) (n : Nat) : List Bool :=
  match e with
  | .holding regs =>
    (List.range n).flatMap fun k => wireBits (regs[(a.toNat + k) % 64]'(Nat.mod_lt _ (by decide)))
  | .unknown before heard => (List.range (8 * n)).map (Config.unknownSlaveLevel before heard a)

/-- How a select assertion ends at the clock edge from `s` to `t`, if one does: CS_N is low before the edge and not low
after it, at an edge with reset or without (R130, R189). -/
def selectEnd (s t : State) : Option SelectEnd :=
  if (pins s.block).csN == .low && (pins t.block).csN != .low then
    match s.edgeInput with
    | .rst _ => some .cut
    | .idle => some .completed
    | .access _ => some .completed
    | .poll => some .completed
  else none

/-- An echo slave on the pins, with what it has read in the present select assertion. -/
structure EchoHarness where
  slave : EchoSlave
  bits : List Level
deriving DecidableEq, Repr

/-- The harness over the clock edge from `s` to `t`: it reads MOSI where SCLK falls while CS_N is low, and takes the
select assertion that ends. An edge that leaves the lines undriven makes it a slave of which nothing is known, whose
answers stay any level also when a reset drives the lines again: what a slave observes on them is any value (R140, U5).
DESIGN CHOICE, assumption log entry 13: how the model holds that. -/
def EchoHarness.edge (h : EchoHarness) (s t : State) : EchoHarness :=
  let bits := h.bits ++ selectedBits [pins s.block, pins t.block]
  if (pins t.block).csN == .z then ⟨h.slave.forget (bits ++ [(pins t.block).mosi]), []⟩
  else
    match selectEnd s t with
    | none => { h with bits := bits }
    | some ended => ⟨h.slave.hear ended bits, []⟩

/-- The harness over the next `n` steps of the machine from `s`, as far as there are any. -/
def EchoHarness.follow (h : EchoHarness) : Nat → State → EchoHarness
  | 0, _ => h
  | n + 1, s =>
    match step s with
    | .next t => (h.edge s t).follow n t
    | .fault _ => h
    | .refused _ => h

end Sys2Proof.Machine.Attached
end

