-- ==== Sys2Proof/Machine/HostProgram.lean ====
section
/-! DEFINITION. The host's programs as the inputs they present to the port (spec/30_encoding.md R79, R80,
spec/70_reset_and_hazards.md R183). These are the host agent's actions, no part of the block. -/

namespace Sys2Proof.Machine.HostProgram

/-- WR reg, value (R79). -/
def wr (r : HostReg) (w : Word) : List EdgeInput := [.access (.write r w)]

/-- RD reg (R79): the value read is `rdata` after this edge. -/
def rd (r : HostReg) : List EdgeInput := [.access (.read r)]

/-- WAIT t, a delay of at least `t` (R79), as exactly `cycles` edges with no access, the shortest delay that R79 allows
for a `t` in cycles. DESIGN CHOICE, assumption log entry 1: the exact length, and that `t` is counted in cycles; a host
that delays longer is `wait` of a greater number. -/
def wait (cycles : Nat) : List EdgeInput := List.replicate cycles .idle

/-- DO command: WR CMD, Encode(command), then POLL (R80). -/
def doCmd (i : Instr) : List EdgeInput := wr .cmd (encode i) ++ [.poll]

/-- The source's acquisition (R183), with the conversion wait given in cycles (R186). -/
def acquisition (waitCycles : Nat) : List EdgeInput :=
  doCmd (.writeReg Attached.SlaveReg.configuration.address Attached.acquireConfig) ++
    wait waitCycles ++ doCmd (.readRegs Attached.SlaveReg.configuration.address 8) ++ rd .rxdata0 ++ rd .rxdata1

end Sys2Proof.Machine.HostProgram
end

