-- ==== Sys2Proof/Safety.lean ====
section
/-! DEFINITION. What holds of every state that a run from reset reaches (spec/10_state.md R26 to R40,
spec/40_line_ops.md R91), and the words the statements are written in. -/

namespace Sys2Proof.Machine

/-! ### The invariant -/

/-- The micro-operations of the running command that have been performed. -/
def Block.performed (b : Block) : List MicroOp := (script b.latch).take b.upc.toNat

/-- CS_N_Q and SCLK_Q after a micro-operation. -/
def lineStep (lines : Bool × Bool) : MicroOp → Bool × Bool
  | .cs v => (v, lines.2)
  | .clk v => (lines.1, v)
  | .dout _ => lines
  | .sample _ _ => lines
  | .rel => lines

/-- CS_N_Q and SCLK_Q after some micro-operations, from the idle lines CS_N_Q = 1, SCLK_Q = 0. -/
def linesAfter (ops : List MicroOp) : Bool × Bool := ops.foldl lineStep (true, false)

/-- Is it the SAMPLE that completes a received byte (R104)? -/
def MicroOp.commits : MicroOp → Bool
  | .cs _ => false
  | .clk _ => false
  | .dout _ => false
  | .sample _ last => last
  | .rel => false

/-- The number of received bytes that some micro-operations complete. -/
def bytesCommitted (ops : List MicroOp) : Nat := (ops.filter MicroOp.commits).length

/-- The number of SAMPLEs among some micro-operations. -/
def samplesIn (ops : List MicroOp) : Nat := (ops.filter MicroOp.samples).length

/-- Is the latched command RECV_BYTE or READ_REGS? -/
def Block.receiving (b : Block) : Bool := b.lop == 0x2#4 || b.lop == 0x4#4

/-- What every block reached from reset satisfies, for the integrator's parameter `p`. -/
structure Block.Inv (p : Config.Params) (b : Block) : Prop where
  /-- R40: the lines are idle between commands. -/
  idleLines : b.busy = false → b.csNQ = true ∧ b.sclkQ = false
  /-- R33, R35: UPC and TICK are 0 between commands. -/
  idleIndex : b.busy = false → b.upc = 0 ∧ b.tick = 0
  /-- R33, R91: UPC names a micro-operation of the running script. -/
  dueIndex : b.busy = true → b.upc.toNat < (script b.latch).length
  /-- R35: TICK counts from 0 to STEP_CYCLES - 1. -/
  tickBound : b.tick < p.stepCycles
  /-- R98: the select and clock lines of a running command are the ones its script has made. -/
  runLines : b.busy = true → (b.csNQ, b.sclkQ) = linesAfter b.performed
  /-- R26, R152: no command runs on released lines. -/
  busyOwned : b.busy = true → b.released = false
  /-- R28: DONE is 0 while a command runs. -/
  busyNotDone : b.busy = true → b.done = false
  /-- R76: a running command's count is at most 8. -/
  countBound : b.busy = true → b.lcnt.toNat ≤ 8
  /-- R29: ERR = 1 exactly when ERRCODE names a reason. -/
  errIff : b.err = true ↔ b.errcode ≠ 0
  /-- R29: ERRCODE is 0 to 4. -/
  errBound : b.errcode.toNat ≤ 4
  /-- R31: RXCNT is 0 to 8. -/
  rxBound : b.rxcnt.toNat ≤ 8
  /-- R185: the entries not yet received hold 0x00. -/
  rxRest : ∀ k : Fin 8, b.rxcnt.toNat ≤ k.val → b.rxbuf[k] = 0
  /-- R104: while a receiving command runs, RXCNT is the number of bytes its script has completed. -/
  rxProgress : b.busy = true → b.receiving = true → b.rxcnt.toNat = bytesCommitted b.performed

/-- The invariant of a state. -/
def State.Inv (s : State) : Prop := s.block.Inv s.params

/-! ### Words of the statements -/

/-- The block accepts a command: none is running and the lines are owned (R152). -/
def State.Ready (s : State) : Prop := s.block.busy = false ∧ s.block.released = false

/-- No reset is presented at any coming edge. -/
def noReset (port : List EdgeInput) : Prop := ∀ a, EdgeInput.rst a ∉ port

/-- No reset is presented at the next edge. -/
def State.NoResetNext (s : State) : Prop := ∀ a, s.edgeInput ≠ .rst a

/-- The block that an accepted command leaves: the common acceptance effects of R151 on `b`, with the fields of `l`
latched. -/
def acceptedBlock (b : Block) (l : Latch) : Block :=
  { b with lop := l.op, lcnt := l.cnt, laddr := l.addr, ldata := l.data,
           busy := true, done := false, err := false, errcode := 0, upc := 0, tick := 0 }

/-- The block that a completed command leaves where it changed nothing but its flags and latches (R101). -/
def completedBlock (b : Block) (l : Latch) : Block :=
  { acceptedBlock b l with busy := false, done := true }

/-- The byte of eight samples b_7 (the first) to b_0: the sum over j of b_j * 2^j (R109). -/
def byteOfSamples (b7 b6 b5 b4 b3 b2 b1 b0 : Bool) : Byte :=
  BitVec.ofNat 8 (b7.toNat * 128 + b6.toNat * 64 + b5.toNat * 32 + b4.toNat * 16 + b3.toNat * 8 + b2.toNat * 4 +
    b1.toNat * 2 + b0.toNat)

/-- The byte whose eight samples are taken at the micro-steps `start`, `start + 3`, ...,
`start + 21` (R103). -/
def sampledByte (miso : Nat → Bool) (start : Nat) : Byte :=
  byteOfSamples (miso start) (miso (start + 3)) (miso (start + 6)) (miso (start + 9)) (miso (start + 12))
    (miso (start + 15)) (miso (start + 18)) (miso (start + 21))

/-- The `k`-th byte of a list of sampled levels, eight a byte, first sample first. -/
def listedByte (levels : List Bool) (k : Nat) : Byte :=
  byteOfSamples (levels.getD (8 * k) false) (levels.getD (8 * k + 1) false) (levels.getD (8 * k + 2) false)
    (levels.getD (8 * k + 3) false) (levels.getD (8 * k + 4) false) (levels.getD (8 * k + 5) false)
    (levels.getD (8 * k + 6) false) (levels.getD (8 * k + 7) false)

/-- The number of micro-operations of a command (R127). -/
def scriptLength : Instr → Nat
  | .sendByte _ => 24
  | .recvByte => 24
  | .writeReg _ _ => 50
  | .readRegs _ count => 26 + 24 * count.toNat
  | .release => 1

end Sys2Proof.Machine
end

