-- ==== Sys2Proof/Certificates/Slice0/Obligations.lean ====
section
/-! DEFINITION. The statements for the provers, one `def Obligations.<Name> : Prop` each, in the order of the spec's
files. A docstring cites the rule that the statement formalises; where it says "model's choice" or "the spec marks it
derived", the statement's basis is 'derived'. -/

open Sys2Proof Sys2Proof.Machine

/-! ### Encoding (spec/30_encoding.md) -/

/-- R70, R77, R80: decoding the encoding of a well formed command gives it back, every operand at every value. -/
def Obligations.DecodeOfEncodeIsTheCommand : Prop :=
  ∀ i : Instr, i.WellFormed → decode (encode i) = .cmd i

/-- R77, R80: a word that decodes to a command is the encoding of it, and the command is well formed. -/
def Obligations.EncodeOfDecodeIsTheWord : Prop :=
  ∀ (w : Word) (i : Instr), decode w = .cmd i → i.WellFormed ∧ encode i = w

/-- R73: a word decodes to a command exactly when it matches a row of the table, and for READ_REGS its CNT is at most
8; the command is the row's. No two rows match one word. -/
def Obligations.CommandWordsAreTheTablesRows : Prop :=
  (∀ (w : Word) (m : String),
      (∃ i, decode w = .cmd i ∧ i.mnemonic = m) ↔
        ∃ r ∈ rows, r.mnemonic = m ∧ w &&& r.mask = r.matchBits ∧ (m = "READ_REGS" → (cntField w).toNat ≤ 8)) ∧
    ∀ (w : Word) (r r' : Row), r ∈ rows → r' ∈ rows → w &&& r.mask = r.matchBits → w &&& r'.mask = r'.matchBits → r = r'

/-- R75: a word whose OP is reserved, or that has a field its opcode must keep at 0 (R70) not 0, is illegal; and no
other word is. -/
def Obligations.IllegalWordsAreReservedOrNonzero : Prop :=
  ∀ w : Word, decode w = .illegal ↔
    ((opField w).toNat = 0 ∨ 6 ≤ (opField w).toNat) ∨
    rsvField w ≠ 0 ∨
    ((opField w).toNat ≠ 4 ∧ cntField w ≠ 0) ∨
    ((opField w).toNat ∈ [1, 2, 5] ∧ addrField w ≠ 0) ∨
    ((opField w).toNat ∈ [2, 4, 5] ∧ dataField w ≠ 0)

/-- R76: the words of CNT in 9 to 15 that are otherwise READ_REGS words, and no others, have a bad count. -/
def Obligations.BadCountWordsAreLongReads : Prop :=
  ∀ w : Word, decode w = .badCount ↔
    (opField w).toNat = 4 ∧ rsvField w = 0 ∧ dataField w = 0 ∧ 9 ≤ (cntField w).toNat

/-- R81, R72: words written out from the format decode to the commands they stand for. -/
def Obligations.WorkedEncodingsDecode : Prop :=
  decode 0x300000B2#32 = .cmd (.writeReg 0 0xB2#8) ∧
  decode 0x48000000#32 = .cmd (.readRegs 0 8) ∧
  decode 0x100000A5#32 = .cmd (.sendByte 0xA5#8) ∧
  decode 0x20000000#32 = .cmd .recvByte ∧
  decode 0x50000000#32 = .cmd .release ∧
  decode 0x30003FFF#32 = .cmd (.writeReg 63 0xFF#8)

/-- R78, R80: the assembler takes exactly the operands in range and puts them, unchanged, in a well formed command; the
mnemonics without operands are their commands, and NOP_CMD is refused. -/
def Obligations.AssemblerRefusesOperandsOutOfRange : Prop :=
  (∀ d, d ≤ 255 → ∃ i, assemble (.sendByte d) = some i ∧ (encode i).toNat = 0x10000000 + d) ∧
  (∀ d, 255 < d → assemble (.sendByte d) = none) ∧
  (∀ a d, a ≤ 63 → d ≤ 255 →
    ∃ i, assemble (.writeReg a d) = some i ∧ (encode i).toNat = 0x30000000 + a * 256 + d) ∧
  (∀ a d, 63 < a ∨ 255 < d → assemble (.writeReg a d) = none) ∧
  (∀ a n, a ≤ 63 → n ≤ 8 →
    ∃ i, assemble (.readRegs a n) = some i ∧ (encode i).toNat = 0x40000000 + n * 16777216 + a * 256) ∧
  (∀ a n, 63 < a ∨ 8 < n → assemble (.readRegs a n) = none) ∧
  (∀ a, assemble (.readReg a) = assemble (.readRegs a 1)) ∧
  assemble .recvByte = some .recvByte ∧ assemble .release = some .release ∧
  assemble .nopCmd = none

/-! ### Reset (spec/10_state.md R39, spec/70_reset_and_hazards.md R180) -/

/-- R39: the state that an edge with rst = 1 leaves, field by field, and the state of the model after reset, which has
the same values whatever STEP_CYCLES is. -/
def Obligations.ResetLeavesTheResetValues : Prop :=
  ∀ b : Block,
    (∃ (s t : State) (presented : Option Access), s.edgeInput = .rst presented ∧ step s = .next t ∧ t.block = b) ∨
      (∃ p : Config.Params, b = (State.resetWith p).block) →
    b.csNQ = true ∧ b.sclkQ = false ∧ b.mosiQ = false ∧ b.released = false ∧ b.busy = false ∧ b.done = false ∧
    b.err = false ∧ b.errcode = 0 ∧ (∀ k : Fin 8, b.rxbuf[k] = 0) ∧ b.rxcnt = 0 ∧ b.lop = 0 ∧ b.laddr = 0 ∧
    b.ldata = 0 ∧ b.lcnt = 0 ∧ b.shreg = 0 ∧ b.upc = 0 ∧ b.tick = 0

/-- R180: at an edge with rst = 1 the block takes its reset values whatever it was doing and whatever access is
presented. BUSY and DONE are 0 and the pins go to 1, 0, 0, driven. No micro-step is performed: no MISO level is used.
A read presented at the edge returns an unspecified value: nothing is said of `h_rdata`. -/
def Obligations.ResetEdgeWinsOverEverything : Prop :=
  ∀ (s : State) (presented : Option Access) (rest : List EdgeInput), s.port = .rst presented :: rest →
    ∃ t, step s = .next t ∧ t.block = State.reset.block ∧ t.block.busy = false ∧ t.block.done = false ∧
      pins t.block = ⟨.high, .low, .low⟩ ∧ t.params = s.params ∧ t.misoIn = s.misoIn ∧ t.port = rest

/-! ### Host registers (spec/10_state.md R38, spec/20_memory.md R51, R55) -/

/-- R38: the fields of STATUS and the bits that read 0. -/
def Obligations.StatusWordHasItsFields : Prop :=
  ∀ b : Block,
    let w := readReg b .status
    w.getLsbD 0 = b.busy ∧ w.getLsbD 1 = b.done ∧ w.getLsbD 2 = b.err ∧ w.getLsbD 3 = b.released ∧
    w.extractLsb' 4 3 = b.errcode ∧ w.getLsbD 7 = false ∧ w.extractLsb' 8 4 = b.rxcnt ∧ w.extractLsb' 12 20 = 0

/-- R55: RXBUF[4j + m] is bits 8m+7:8m of RXDATAj; R51: CMD reads 0. -/
def Obligations.RxDataHoldsTheBufferInLanes : Prop :=
  ∀ b : Block,
    (∀ m : Fin 4, (readReg b .rxdata0).extractLsb' (8 * m.val) 8 = b.rxbuf[m.val]) ∧
    (∀ m : Fin 4, (readReg b .rxdata1).extractLsb' (8 * m.val) 8 = b.rxbuf[4 + m.val]) ∧
    readReg b .cmd = 0

/-- R51, R52: the four indices name the four registers, all mapped; HostRead gives the register of the index, and
HostWrite is a write to CMD for index 0 and nothing for every other index. R22: what the port's signals present. -/
def Obligations.HostIndicesNameTheFourRegisters : Prop :=
  (∀ i : BitVec 2, (HostReg.ofIndex i).index = i) ∧ (∀ r : HostReg, HostReg.ofIndex r.index = r) ∧
  (∀ s : State, hostRead 0 s = 0 ∧ hostRead 1 s = statusWord s.block ∧
    hostRead 2 s = s.block.rxbuf[3] ++ s.block.rxbuf[2] ++ s.block.rxbuf[1] ++ s.block.rxbuf[0] ∧
    hostRead 3 s = s.block.rxbuf[7] ++ s.block.rxbuf[6] ++ s.block.rxbuf[5] ++ s.block.rxbuf[4]) ∧
  (∀ (s : State) (w : Word), hostWrite 0 w s = writeCmd w s) ∧
  (∀ (s : State) (i : BitVec 2) (w : Word), i ≠ 0 → hostWrite i w s = .next s) ∧
  (∀ (i : BitVec 2) (w : Word),
    EdgeInput.ofSignals false true true i w = .access (.write (HostReg.ofIndex i) w) ∧
    EdgeInput.ofSignals false true false i w = .access (.read (HostReg.ofIndex i)) ∧
    (∀ wr, EdgeInput.ofSignals false false wr i w = .idle) ∧
    ∀ v wr, ∃ presented, EdgeInput.ofSignals true v wr i w = .rst presented)

/-- R52, R58, R62: at an edge with a host read, `h_rdata` is the register's value in the state before the edge, and
everything else is as at an edge with no access. -/
def Obligations.ReadReturnsTheStateBeforeTheEdgeAndChangesNothing : Prop :=
  ∀ (s u : State) (r : HostReg) (rest : List EdgeInput), s.port = .access (.read r) :: rest →
    step { s with port := .idle :: rest } = .next u →
    step s = .next { u with rdata := readReg s.block r }

/-- R51, R58: a write to STATUS, RXDATA0 or RXDATA1 is ignored: the edge is as one with no access,
in every field of the state but `h_rdata`, of which the spec says nothing at either edge; it is exempt here. -/
def Obligations.WritesToReadOnlyRegistersAreIgnored : Prop :=
  ∀ (s : State) (r : HostReg) (w : Word) (rest : List EdgeInput), r ≠ .cmd → s.port = .access (.write r w) :: rest →
    (∀ u, step { s with port := .idle :: rest } = .next u → ∃ rd, step s = .next { u with rdata := rd }) ∧
    (∀ f, step { s with port := .idle :: rest } = .fault f → step s = .fault f) ∧
    (∀ f, step { s with port := .idle :: rest } = .refused f → step s = .refused f)

/-- R80: POLL repeats a STATUS read and ends with the read that returns BUSY = 0. That it reads at every edge is the
model's choice, log entry 1 (DESIGN CHOICE): R80 gives the loop and no pace. -/
def Obligations.PollRepeatsUntilBusyIsClear : Prop :=
  ∀ (s t : State) (rest : List EdgeInput), s.port = .poll :: rest → step s = .next t →
    t.rdata = statusWord s.block ∧ t.port = (if t.rdata.getLsbD 0 then .poll :: rest else rest)

/-- R24: each output pin shows its latch while the lines are owned and is undriven once they are released, and a latch
changes only at an edge with a micro-step or a reset. -/
def Obligations.PinsShowTheLatchesUntilReleased : Prop :=
  (∀ b : Block,
    (b.released = false → pins b =
      ⟨if b.csNQ then .high else .low, if b.sclkQ then .high else .low, if b.mosiQ then .high else .low⟩) ∧
    (b.released = true → pins b = ⟨.z, .z, .z⟩)) ∧
  ∀ s t : State, s.NoResetNext → (s.block.busy = false ∨ s.block.tick + 1 ≠ s.params.stepCycles) →
    step s = .next t →
    t.block.csNQ = s.block.csNQ ∧ t.block.sclkQ = s.block.sclkQ ∧ t.block.mosiQ = s.block.mosiQ

/-! ### Acceptance and refusal (spec/60_exceptions.md R150 to R156) -/

/-- The step runs the decoded command: at an edge with a write of a word that decodes to `i`, the step is `exec i` on
the state with the port moved on, and then, when BUSY was 1 before the edge, the sequencer's part of the edge. Two clauses are the model's: that
`h_rdata` at a write edge is the free value `Config.freeRdata` of the counter (log entry 4, DESIGN CHOICE: the spec is
silent), and that the host's part is worked out before the sequencer's (log entry 9, DEDUCED from R156). -/
def Obligations.StepExecutesTheDecodedCommand : Prop :=
  ∀ (s : State) (w : Word) (i : Instr) (rest : List EdgeInput),
    s.port = .access (.write .cmd w) :: rest → decode w = .cmd i →
    step s = sequenceAfter s.block.busy
      (exec i { s with port := rest, rdata := Config.freeRdata s.draws, draws := s.draws + 1 })

/-- R32, R151: SEND_BYTE, WRITE_REG and RELEASE are accepted in every state with BUSY = 0 and RELEASED = 0. The fields
of the command word are latched, BUSY is 1, DONE, ERR, ERRCODE, UPC and TICK are 0, and every other field of the block
and of the environment is unchanged: the receive buffer, the lines and SHREG among them. -/
def Obligations.SendWriteReleaseAcceptanceEffects : Prop :=
  ∀ (s : State) (i : Instr), s.Ready →
    (∃ d, i = .sendByte d) ∨ (∃ a d, i = .writeReg a d) ∨ i = .release →
    exec i s = .next { s with block := { s.block with
      lop := opField (encode i), lcnt := cntField (encode i), laddr := addrField (encode i),
      ldata := dataField (encode i), busy := true, done := false, err := false, errcode := 0, upc := 0, tick := 0 } }

/-- R30, R31, R151: RECV_BYTE, and READ_REGS with a count of at most 8, are accepted in the same states with the same
effects, and clear RXBUF[0..7] and RXCNT as well. -/
def Obligations.ReceivingCommandAcceptanceEffects : Prop :=
  ∀ (s : State) (i : Instr), s.Ready → i.WellFormed → i = .recvByte ∨ (∃ a n, i = .readRegs a n) →
    exec i s = .next { s with block := { s.block with
      lop := opField (encode i), lcnt := cntField (encode i), laddr := addrField (encode i),
      ldata := dataField (encode i), busy := true, done := false, err := false, errcode := 0, upc := 0, tick := 0,
      rxbuf := Vector.replicate 8 0, rxcnt := 0 } }

/-- R27, R150, R152: every command written while BUSY = 1 is refused with ERRCODE = 3; only ERR and ERRCODE change. -/
def Obligations.EveryCommandIsRefusedWhileBusy : Prop :=
  ∀ (s : State) (i : Instr), s.block.busy = true →
    exec i s = .next { s with block := { s.block with err := true, errcode := 3 } }

/-- R26, R141, R152: with the lines released and no command running, every command is refused with ERRCODE = 4; only
DONE, ERR and ERRCODE change. -/
def Obligations.EveryCommandIsRefusedOnceReleased : Prop :=
  ∀ (s : State) (i : Instr), s.block.busy = false → s.block.released = true →
    exec i s = .next { s with block := { s.block with done := false, err := true, errcode := 4 } }

/-- R151: a write of `w` to CMD at an edge with BUSY = 0 before it does what `Accept(w)` says: DONE <- 0, and then the
refusal RELEASED, ILLEGAL or COUNT, or the latch writes, BUSY <- 1, ERR, ERRCODE, UPC and TICK <- 0 and, for RECV_BYTE
and READ_REGS, the cleared receive buffer. With BUSY = 1 it is refused with ERRCODE = 3, and with no micro-step at the
edge DONE and everything but ERR, ERRCODE and TICK stay. -/
def Obligations.CommandWriteFollowsTheAcceptProcedure : Prop :=
  ∀ (s : State) (w : Word) (rest : List EdgeInput), s.port = .access (.write .cmd w) :: rest →
    (s.block.busy = true → ∀ t, step s = .next t → t.block.err = true ∧ t.block.errcode = 3) ∧
    (s.block.busy = true → s.block.tick + 1 ≠ s.params.stepCycles →
      ∃ t, step s = .next t ∧
        t.block = { s.block with err := true, errcode := 3, tick := s.block.tick + 1 }) ∧
    (s.block.busy = false →
      ∃ t, step s = .next t ∧ t.misoIn = s.misoIn ∧ t.params = s.params ∧ t.port = rest ∧
        (s.block.released = true → t.block = { s.block with done := false, err := true, errcode := 4 }) ∧
        (s.block.released = false →
          (decode w = .illegal → t.block = { s.block with done := false, err := true, errcode := 1 }) ∧
          (decode w = .badCount → t.block = { s.block with done := false, err := true, errcode := 2 }) ∧
          (∀ i, decode w = .cmd i → t.block = { s.block with
            lop := opField w, lcnt := cntField w, laddr := addrField w, ldata := dataField w, busy := true,
            done := false, err := false, errcode := 0, upc := 0, tick := 0,
            rxbuf := if (opField w).toNat = 2 ∨ (opField w).toNat = 4 then Vector.replicate 8 0 else s.block.rxbuf
            rxcnt := if (opField w).toNat = 2 ∨ (opField w).toNat = 4 then 0 else s.block.rxcnt })))

/-- R150, R152: a write to CMD that cannot be executed leaves the state as an edge with no access leaves it, but for
ERR = 1, ERRCODE, and DONE, which it clears unless the reason is BUSY; a running command goes on as it would have.
ERRCODE is the first reason that applies of BUSY (3), RELEASED (4), ILLEGAL (1) and COUNT (2). Nothing is said of
`h_rdata`, to which the spec gives no value at either edge. -/
def Obligations.RefusalsReportTheFirstReasonAndChangeNothingElse : Prop :=
  ∀ (s u : State) (w : Word) (rest : List EdgeInput),
    s.port = .access (.write .cmd w) :: rest →
    s.block.busy = true ∨ s.block.released = true ∨ decode w = .illegal ∨ decode w = .badCount →
    step { s with port := .idle :: rest } = .next u →
    ∃ rd, step s = .next { u with rdata := rd, block := { u.block with
      err := true
      errcode := if s.block.busy then 3 else if s.block.released then 4 else if decode w = .illegal then 1 else 2
      done := s.block.busy && u.block.done } }

/-- R156: simultaneous events at one edge. A reset wins over an access and a micro-step. A write to CMD at the edge of
the running command's last micro-step is refused with ERRCODE = 3 and the command still completes: BUSY = 0, DONE = 1,
ERR = 1, ERRCODE = 3, and every other field of the block as the micro-step alone leaves it. A host read at any edge returns the state before it, whether or not a micro-step happens. -/
def Obligations.SimultaneousEventsAtOneEdge : Prop :=
  (∀ (s : State) (presented : Option Access), s.edgeInput = .rst presented →
    ∃ t, step s = .next t ∧ t.block = Block.reset ∧ t.misoIn = s.misoIn) ∧
  (∀ (s : State) (w : Word), s.edgeInput = .access (.write .cmd w) → s.block.busy = true →
    s.block.tick + 1 = s.params.stepCycles → s.block.upc.toNat + 1 = (script s.block.latch).length →
    ∃ t b m, step s = .next t ∧ s.block.microStep m = some b ∧
      t.block = { b with err := true, errcode := 3 } ∧
      t.block.busy = false ∧ t.block.done = true ∧ t.block.err = true ∧ t.block.errcode = 3) ∧
  (∀ (s t : State) (r : HostReg), s.edgeInput = .access (.read r) → step s = .next t → t.rdata = readReg s.block r)

/-! ### Micro-operations and the micro-step engine (spec/40_line_ops.md) -/

/-- R92 to R94, R96: CS, CLK and DOUT write one output latch and REL sets RELEASED; nothing else changes. -/
def Obligations.LineOperationsWriteOneField : Prop :=
  ∀ (b : Block) (m v : Bool),
    perform (.cs v) m b = { b with csNQ := v } ∧
    perform (.clk v) m b = { b with sclkQ := v } ∧
    perform (.dout v) m b = { b with mosiQ := v } ∧
    perform .rel m b = { b with released := true }

/-- R95: SAMPLE shifts the MISO level into SHREG, modulo 256; the last of a byte writes the result to RXBUF[k] and k+1
to RXCNT as well. No other field changes. -/
def Obligations.SampleShiftsInTheMisoLevel : Prop :=
  ∀ (b : Block) (m : Bool) (k : Fin 8),
    ∃ sh : Byte, sh.toNat = (b.shreg.toNat * 2 + m.toNat) % 256 ∧
      perform (.sample k false) m b = { b with shreg := sh } ∧
      perform (.sample k true) m b =
        { b with shreg := sh, rxbuf := b.rxbuf.set k sh, rxcnt := BitVec.ofNat 4 (k.val + 1) }

/-- R97: a micro-step performs the micro-operation UPC names, moves UPC to the next, or at the end of the script clears
BUSY and UPC and sets DONE, and clears TICK. -/
def Obligations.MicroStepPerformsTheDueOperation : Prop :=
  ∀ (b : Block) (m : Bool) (op : MicroOp), (script b.latch)[b.upc.toNat]? = some op →
    (b.upc.toNat + 1 < (script b.latch).length →
      b.microStep m = some { perform op m b with upc := b.upc + 1, tick := 0 }) ∧
    (b.upc.toNat + 1 = (script b.latch).length →
      b.microStep m = some { perform op m b with busy := false, done := true, upc := 0, tick := 0 })

/-- R35: TICK is 0 while BUSY = 0 and is left at 0 by the acceptance of a command. At every edge without reset with BUSY = 1 before it, TICK increments, unless
TICK = STEP_CYCLES - 1; then a micro-step is performed and TICK is 0. Nothing else of the block changes but by the
micro-step, save ERR and ERRCODE, which a command write at the same edge may set. The micro-step sees the slave's next
level on MISO if the slave has presented one, and a SAMPLE, nothing else, uses a level up: R13 and R95 make the level a
free input of each SAMPLE, and that the inputs are a list is the model's choice, log entry 3 (DESIGN CHOICE). -/
def Obligations.BusyEdgeTicksOrPerformsAMicroStep : Prop :=
  ∀ s : State, s.Inv →
    (s.block.busy = false → s.block.tick = 0 ∧
      ∀ t, step s = .next t → t.block.busy = true → t.block.tick = 0) ∧
    (s.block.busy = true → s.NoResetNext → s.block.tick + 1 < s.params.stepCycles →
      ∃ t, step s = .next t ∧ t.misoIn = s.misoIn ∧
        t.block = { s.block with tick := s.block.tick + 1, err := t.block.err, errcode := t.block.errcode }) ∧
    (s.block.busy = true → s.NoResetNext → s.block.tick + 1 = s.params.stepCycles →
      ∃ t b m op, step s = .next t ∧ s.block.dueOp = some op ∧ s.block.microStep m = some b ∧
        (∀ x later, s.misoIn = x :: later → m = x) ∧
        t.block = { b with err := t.block.err, errcode := t.block.errcode } ∧ t.block.tick = 0 ∧
        t.misoIn = if op.samples then s.misoIn.tail else s.misoIn)

/-- R35: while no command runs, an edge with no reset and no write to CMD leaves the block as it is. (That no MISO
level is used up is said of the model's list of levels, log entry 3, DESIGN CHOICE.) -/
def Obligations.IdleEdgeLeavesTheBlock : Prop :=
  ∀ s : State, s.block.busy = false → s.NoResetNext → (∀ w, s.edgeInput ≠ .access (.write .cmd w)) →
    ∃ t, step s = .next t ∧ t.block = s.block ∧ t.misoIn = s.misoIn ∧ t.params = s.params

/-- R100: sendBits(V) is CLK(1), DOUT(V[i]), CLK(0) for i = 7 down to 0, 24 micro-operations; performed, whatever MISO
is, it leaves SCLK_Q = 0 and MOSI_Q = V[0] and writes no other state. -/
def Obligations.SendBitsSequenceAndEffect : Prop :=
  ∀ v : Byte,
    sendBits v = (List.range 8).flatMap
      (fun j => [MicroOp.clk true, MicroOp.dout (v.getLsbD (7 - j)), MicroOp.clk false]) ∧
    (sendBits v).length = 24 ∧
    ∀ (b : Block) (m : Bool),
      (sendBits v).foldl (fun b op => perform op m b) b = { b with sclkQ := false, mosiQ := v.getLsbD 0 }

/-- R126: the script of a READ_REGS with LCNT = n: select, the address byte, the receive slots 0 to n-1 in order,
deselect. -/
def Obligations.ReadRegsScriptTakesTheSlotsInOrder : Prop :=
  ∀ l : Latch, l.op = 0x4#4 → l.cnt.toNat ≤ 8 →
    script l = [MicroOp.cs false] ++ sendBits (l.addr.setWidth 8) ++
      (List.range l.cnt.toNat).flatMap (fun k => recvBits (Fin.ofNat 8 k)) ++ [MicroOp.cs true]

/-- R127: the script of an accepted command has the length of the table. (The spec marks the table derived.) -/
def Obligations.ScriptsHaveTheirLengths : Prop :=
  ∀ (s t : State) (i : Instr), s.Ready → i.WellFormed → exec i s = .next t →
    (script t.block.latch).length = scriptLength i

/-- R93: in a run from reset, a CLK micro-operation always changes its latch, so it is an edge on the pin. (The spec
marks it derived.) -/
def Obligations.EveryClockOperationIsAnEdge : Prop :=
  ∀ (s : State) (v : Bool), s.Inv → s.block.busy = true → s.block.dueOp = some (.clk v) → s.block.sclkQ = !v

/-- R98: the pins over any number of micro-steps are the same for every two courses of MISO. (The spec marks it
derived.) -/
def Obligations.PinsDoNotDependOnMiso : Prop :=
  ∀ (b : Block) (miso miso' : Nat → Bool) (n : Nat), pinTrace miso n b = pinTrace miso' n b

/-! ### The commands, from acceptance to completion (spec/41 to spec/43) -/

/-- R101: SEND_BYTE #d. Accepted in every ready state, and after its 24 micro-steps, whatever MISO was: SCLK_Q = 0,
MOSI_Q = d[0], DONE = 1, BUSY, ERR and ERRCODE 0, and CS_N_Q, RXBUF, RXCNT and SHREG unchanged. -/
def Obligations.SendByteEndState : Prop :=
  ∀ (s : State) (d : Byte) (miso : Nat → Bool), s.Ready →
    ∃ t, exec (.sendByte d) s = .next t ∧
      runMicro miso 24 t.block = some { completedBlock s.block ⟨0x1#4, 0, 0, d⟩ with
        sclkQ := false, mosiQ := d.getLsbD 0 }

/-- R102, R103: RECV_BYTE. Accepted in every ready state, and after its 24 micro-steps RXBUF[0] and SHREG are the byte
of the eight samples, the first in bit 7, whatever SHREG was; RXBUF[1..7] = 0x00, RXCNT = 1, SCLK_Q = 0, and MOSI_Q and
CS_N_Q unchanged. -/
def Obligations.RecvByteEndState : Prop :=
  ∀ (s : State) (miso : Nat → Bool), s.Ready →
    ∃ t, exec .recvByte s = .next t ∧
      runMicro miso 24 t.block = some { completedBlock s.block ⟨0x2#4, 0, 0, 0⟩ with
        sclkQ := false, shreg := sampledByte miso 1, rxcnt := 1,
        rxbuf := #v[sampledByte miso 1, 0, 0, 0, 0, 0, 0, 0] }

/-- R121: WRITE_REG a, #d. Accepted in every ready state, and after its 50 micro-steps, whatever MISO was: CS_N_Q = 1,
SCLK_Q = 0, MOSI_Q = d[0], and RXBUF, RXCNT and SHREG unchanged. -/
def Obligations.WriteRegEndState : Prop :=
  ∀ (s : State) (a : RegAddr) (d : Byte) (miso : Nat → Bool), s.Ready →
    ∃ t, exec (.writeReg a d) s = .next t ∧
      runMicro miso 50 t.block = some { completedBlock s.block ⟨0x3#4, 0, a, d⟩ with
        csNQ := true, sclkQ := false, mosiQ := d.getLsbD 0 }

/-- R125, R128: READ_REGS a, n with n at most 8. Accepted in every ready state, and after its 26 + 24n micro-steps
RXBUF[k] is the byte of the eight samples of recvBits(k) for k < n and 0x00 above, RXCNT = n, CS_N_Q = 1, SCLK_Q = 0,
MOSI_Q = a[0], and SHREG the last byte received, or unchanged when n = 0. -/
def Obligations.ReadRegsEndState : Prop :=
  ∀ (s : State) (a : RegAddr) (n : Nibble) (miso : Nat → Bool), s.Ready → n.toNat ≤ 8 →
    ∃ t, exec (.readRegs a n) s = .next t ∧
      runMicro miso (26 + 24 * n.toNat) t.block = some { completedBlock s.block ⟨0x4#4, n, a, 0⟩ with
        csNQ := true, sclkQ := false, mosiQ := a.getLsbD 0, rxcnt := n,
        rxbuf := Vector.ofFn fun k => if k.val < n.toNat then sampledByte miso (26 + 24 * k.val) else 0
        shreg := if n = 0 then s.block.shreg else sampledByte miso (26 + 24 * (n.toNat - 1)) }

/-- R140: RELEASE. Accepted in every ready state, and after its one micro-step RELEASED = 1 and the three pins are
undriven; the latches, RXBUF, RXCNT and SHREG are unchanged. -/
def Obligations.ReleaseEndState : Prop :=
  ∀ (s : State) (miso : Nat → Bool), s.Ready →
    ∃ t u, exec .release s = .next t ∧ runMicro miso 1 t.block = some u ∧
      u = { completedBlock s.block ⟨0x5#4, 0, 0, 0⟩ with released := true } ∧ pins u = ⟨.z, .z, .z⟩

/-- R104: byte k of a READ_REGS is written to RXBUF[k], and RXCNT becomes k+1, in the micro-step of its eighth SAMPLE,
which is the one of UPC 47 + 24k, one before the byte's last CLK(0); the slots are 0 to n-1. RECV_BYTE has slot 0 alone
and commits in the micro-step of UPC 22. Before, the entry is the 0x00 of acceptance. -/
def Obligations.ReceivedBytesAreCommittedAtTheirEighthSample : Prop :=
  (∀ (s t : State) (a : RegAddr) (n : Nibble) (miso : Nat → Bool) (j : Nat), s.Ready → n.toNat ≤ 8 →
    exec (.readRegs a n) s = .next t → j ≤ 26 + 24 * n.toNat →
    ∃ b, runMicro miso j t.block = some b ∧
      (∀ k : Fin 8, b.rxbuf[k] =
        if k.val < n.toNat ∧ 47 + 24 * k.val < j then sampledByte miso (26 + 24 * k.val) else 0) ∧
      b.rxcnt.toNat = min n.toNat ((j - 24) / 24)) ∧
  (∀ (s t : State) (miso : Nat → Bool) (j : Nat), s.Ready → exec .recvByte s = .next t → j ≤ 24 →
    ∃ b, runMicro miso j t.block = some b ∧
      (∀ k : Fin 8, b.rxbuf[k] = if k.val = 0 ∧ 22 < j then sampledByte miso 1 else 0) ∧
      b.rxcnt.toNat = if 22 < j then 1 else 0)

/-- R130: in WRITE_REG and READ_REGS, CS_N_Q is 0 from the first micro-step to the one before the last and 1 after the
last; SEND_BYTE and RECV_BYTE never assert select. (The spec marks it derived.) -/
def Obligations.SelectFramesTheRegisterTransactions : Prop :=
  ∀ (s t : State) (i : Instr) (miso : Nat → Bool) (j : Nat), s.Inv → s.Ready → i.WellFormed →
    exec i s = .next t → 0 < j → j ≤ scriptLength i →
    ∃ b, runMicro miso j t.block = some b ∧
      ((∃ a d, i = .writeReg a d) ∨ (∃ a n, i = .readRegs a n) → (b.csNQ = false ↔ j < scriptLength i)) ∧
      ((∃ d, i = .sendByte d) ∨ i = .recvByte → b.csNQ = true)

/-- R105: the MOSI level at the eight falling edges of SCLK in a SEND_BYTE #d is d, most-significant bit first. R101,
R130: CS_N is high before, throughout and after, so a slave selected by CS_N reads no bit. (The spec marks R105 and R130
derived.) -/
def Obligations.SendByteOnTheWire : Prop :=
  ∀ (s t : State) (d : Byte) (miso : Nat → Bool), s.Inv → s.Ready → exec (.sendByte d) s = .next t →
    fallingBits (pinTrace miso 24 t.block) = (wireBits d).map drivenLevel ∧
    selectedBits (pinTrace miso 24 t.block) = [] ∧ (pinTrace miso 24 t.block).length = 25 ∧
    ∀ p ∈ pinTrace miso 24 t.block, p.csN = .high

/-- R131: between the fall and the rise of CS_N, the slave reads 0x80 OR a and then d in a WRITE_REG a, #d, and the
address byte a first in a READ_REGS a, n, with MOSI held at a[0] afterwards. (The spec marks it derived.) -/
def Obligations.RegisterCommandsOnTheWire : Prop :=
  (∀ (s t : State) (a : RegAddr) (d : Byte) (miso : Nat → Bool), s.Inv → s.Ready →
    exec (.writeReg a d) s = .next t →
    selectedBits (pinTrace miso 50 t.block) =
      (wireBits (0x80#8 ||| a.setWidth 8) ++ wireBits d).map drivenLevel) ∧
  (∀ (s t : State) (a : RegAddr) (n : Nibble) (miso : Nat → Bool), s.Inv → s.Ready → n.toNat ≤ 8 →
    exec (.readRegs a n) s = .next t →
    selectedBits (pinTrace miso (26 + 24 * n.toNat) t.block) =
      (wireBits (a.setWidth 8) ++ List.replicate (8 * n.toNat) (a.getLsbD 0)).map drivenLevel)

/-- R108: with MOSI wired to MISO, SEND_BYTE #v and then RECV_BYTE receives v[0] eight times. With a harness that
presents the bits of v again, most-significant first, it receives v. (The spec marks it derived.) -/
def Obligations.LoopbackReceivesTheLastBitAndReplayTheByte : Prop :=
  ∀ (s t t' : State) (b c : Block) (v : Byte), s.Ready →
    exec (.sendByte v) s = .next t → runWired 24 t.block = some b → exec .recvByte { t with block := b } = .next t' →
    (runWired 24 t'.block = some c → c.rxbuf[0] = if v.getLsbD 0 then 0xFF#8 else 0x00#8) ∧
    (∀ miso : Nat → Bool, (∀ j < 8, miso (3 * j + 1) = v.getLsbD (7 - j)) →
      ∃ c', runMicro miso 24 t'.block = some c' ∧ c'.rxbuf[0] = v)

/-- L1.6 of spec/95_test_vectors.md, R176: a WRITE_REG a, #d followed by a READ_REGS a, 1 reads d back from an echo slave
that no reset has cut short, which learns the byte from the pins alone. (The echo slave is a harness, no rule of the
block: log entry 13, DEDUCED and DESIGN CHOICE. The statement does not use its address wrap.) -/
def Obligations.WriteThenReadbackWithTheEchoSlave : Prop :=
  ∀ (s t t' : State) (b : Block) (a : RegAddr) (d : Byte) (regs : Vector Byte 64) (e' : Attached.EchoSlave)
    (miso miso' : Nat → Bool), s.Inv → s.Ready → exec (.writeReg a d) s = .next t →
    runMicro miso 50 t.block = some b →
    e' = (Attached.EchoSlave.holding regs).hear .completed (selectedBits (pinTrace miso 50 t.block)) →
    exec (.readRegs a 1) { t with block := b } = .next t' →
    (∀ j < 8, miso' (26 + 3 * j) = (e'.levels a 1).getD j false) →
    ∃ c, runMicro miso' 50 t'.block = some c ∧ c.rxbuf[0] = d

/-! ### The host's use of the bytes (spec/60_exceptions.md section 4) -/

/-- R174: the ADC code is {RXBUF[1], RXBUF[2]} shifted right by 1. -/
def Obligations.AdcCodeDropsTheStatusBit : Prop :=
  ∀ b : Block, (Attached.adcCode b).toNat = (b.rxbuf[1].toNat * 256 + b.rxbuf[2].toNat) / 2

/-- R175: the status byte's bits 7, 6 and 2 are tested in that order, each by its masked value not being 0, and the
first set bit is reported. -/
def Obligations.FirstSetFaultBitIsReported : Prop :=
  ∀ status : Byte,
    Attached.faultOf status =
      if status &&& 0x80#8 ≠ 0 then some .openCable
      else if status &&& 0x40#8 ≠ 0 then some .shortCable
      else if status &&& 0x04#8 ≠ 0 then some .overUnderVoltage
      else none

/-! ### The machine over many edges -/

/-- R39, R40, R181: the reset state satisfies the invariant, for every STEP_CYCLES and whatever the environment is going
to present. -/
def Obligations.ResetStateSatisfiesTheInvariant : Prop :=
  ∀ (p : Config.Params) (port : List EdgeInput) (miso : List Bool),
    ({ State.resetWith p with port := port, misoIn := miso } : State).Inv

/-- R26 to R40: every step keeps the invariant. -/
def Obligations.EveryStepKeepsTheInvariant : Prop :=
  ∀ s t : State, s.Inv → step s = .next t → t.Inv

/-- R153: after acceptance nothing fails: from a state of the invariant, every step has a next state. -/
def Obligations.NoStepFails : Prop :=
  ∀ s : State, s.Inv → ∃ t, step s = .next t

/-- R153, R181: from reset, for every STEP_CYCLES, every host and every slave, the machine runs for ever within its
invariant. -/
def Obligations.TheMachineRunsFromResetForEver : Prop :=
  ∀ (p : Config.Params) (port : List EdgeInput) (miso : List Bool) (n : Nat),
    ∃ t, Host.Core.run Sys2Proof.core n ({ State.resetWith p with port := port, misoIn := miso } : State) = .next t ∧
      State.Inv t

/-- R33: UPC stays within 0 to 217; R25: TICK fits in its width. (The spec marks R33 derived.) -/
def Obligations.MicroStepIndexAndTimerStayInRange : Prop :=
  ∀ s : State, s.Inv → s.block.upc.toNat ≤ 217 ∧ s.block.tick < 2 ^ s.params.tickBits

/-- R26 to R29: at an edge without reset, BUSY rises only by a write to CMD of a word that decodes to a command and falls
only with the last micro-operation of the script, when DONE rises; RELEASED changes only by the REL of a running
RELEASE; DONE falls, and ERR and ERRCODE change, only at a write to CMD. -/
def Obligations.FlagsChangeOnlyByTheirCauses : Prop :=
  ∀ s t : State, s.Inv → step s = .next t → s.NoResetNext →
    (s.block.busy = false → t.block.busy = true →
      ∃ w i, s.edgeInput = .access (.write .cmd w) ∧ decode w = .cmd i ∧ s.block.released = false) ∧
    (s.block.busy = true → t.block.busy = false →
      s.block.upc.toNat + 1 = (script s.block.latch).length ∧ t.block.done = true) ∧
    (t.block.released ≠ s.block.released → s.block.busy = true ∧ s.block.lop = 0x5#4 ∧ t.block.released = true) ∧
    (s.block.done = true → t.block.done = false → ∃ w, s.edgeInput = .access (.write .cmd w)) ∧
    (s.block.done = false → t.block.done = true → s.block.busy = true ∧ t.block.busy = false) ∧
    (t.block.err ≠ s.block.err ∨ t.block.errcode ≠ s.block.errcode →
      ∃ w, s.edgeInput = .access (.write .cmd w))

/-- R141: once the lines are released, at an edge without reset a write to CMD, whatever its word, is refused with
ERRCODE = 4 and changes only DONE, ERR and ERRCODE; with no such write the block stays as it is. The lines stay
released and the pins undriven. -/
def Obligations.ReleaseIsFinalUntilReset : Prop :=
  ∀ s : State, s.Inv → s.block.released = true → s.NoResetNext →
    ∃ t, step s = .next t ∧ t.block.released = true ∧ pins t.block = ⟨.z, .z, .z⟩ ∧
      ((∃ w, s.edgeInput = .access (.write .cmd w)) →
        t.block = { s.block with done := false, err := true, errcode := 4 }) ∧
      ((∀ w, s.edgeInput ≠ .access (.write .cmd w)) → t.block = s.block)

/-- R30 to R32, R34: at an edge without reset, the latched fields change only when a command is accepted, the receive
buffer and count only when a receiving command is accepted at the edge or was running before it, and SHREG only while
one runs. -/
def Obligations.LatchesAndBufferChangeOnlyByTheirCauses : Prop :=
  ∀ s t : State, s.Inv → step s = .next t → s.NoResetNext →
    (t.block.latch ≠ s.block.latch → s.block.busy = false ∧ t.block.busy = true) ∧
    (t.block.rxbuf ≠ s.block.rxbuf ∨ t.block.rxcnt ≠ s.block.rxcnt →
      t.block.receiving = true ∧ (s.block.busy = true ∨ s.block.busy = false ∧ t.block.busy = true)) ∧
    (t.block.shreg ≠ s.block.shreg → s.block.receiving = true ∧ s.block.busy = true)

/-- R191: an accepted command completes at the (L * STEP_CYCLES)-th edge after its acceptance edge, and not before,
whatever the host presents meanwhile, so long as no reset comes. (The spec marks it derived.) -/
def Obligations.CommandCompletesAfterItsScriptsCycles : Prop :=
  ∀ (s : State) (i : Instr) (rest : List EdgeInput) (n : Nat), s.Inv → s.Ready → i.WellFormed →
    s.port = .access (.write .cmd (encode i)) :: rest → noReset rest →
    n ≤ scriptLength i * s.params.stepCycles →
    ∃ t : State, Host.Core.run Sys2Proof.core (1 + n) s = .next t ∧
      (t.block.busy = true ↔ n < scriptLength i * s.params.stepCycles) ∧
      (t.block.done = true ↔ n = scriptLength i * s.params.stepCycles)

/-- R97, R191: a command written to CMD in a ready state, with a host that presents no more, ends after its cycles in the
block that its micro-steps make of the accepted block, for a course of MISO whose level at the k-th SAMPLE, k from 0, is
the k-th level that the slave presents, as far as it presents any; the levels of the script's SAMPLEs are used up. (The
spec marks the timing derived; that the slave's levels are a list is the model's choice, log entry 3, DESIGN CHOICE.) -/
def Obligations.RunOfACommandIsItsMicroSteps : Prop :=
  ∀ (s : State) (i : Instr), s.Inv → s.Ready → i.WellFormed → s.port = [.access (.write .cmd (encode i))] →
    ∃ (a t : State) (miso : Nat → Bool), exec i s = .next a ∧
      Host.Core.run Sys2Proof.core (1 + scriptLength i * s.params.stepCycles) s = .next t ∧
      runMicro miso (scriptLength i) a.block = some t.block ∧
      (∀ j op x, (script a.block.latch)[j]? = some op → op.samples = true →
        s.misoIn[samplesIn ((script a.block.latch).take j)]? = some x → miso j = x) ∧
      t.misoIn = s.misoIn.drop (samplesIn (script a.block.latch))

/-- R125, R191: a READ_REGS a, n written to CMD in a ready state, with a host that presents no more and a slave that
presents 8n levels, ends after its cycles with the bytes of those levels in RXBUF[0..n-1], eight levels a byte and the
first in bit 7, 0x00 above, RXCNT = n, the lines idle, and the 8n levels used up. (That the slave's
levels are a list that SAMPLEs use up is the model's choice, log entry 3, DESIGN CHOICE.) -/
def Obligations.ReadRegsDeliversTheSlavesBytes : Prop :=
  ∀ (s : State) (a : RegAddr) (n : Nibble) (levels later : List Bool), s.Inv → s.Ready → n.toNat ≤ 8 →
    s.port = [.access (.write .cmd (encode (.readRegs a n)))] → s.misoIn = levels ++ later →
    levels.length = 8 * n.toNat →
    ∃ t : State, Host.Core.run Sys2Proof.core (1 + scriptLength (.readRegs a n) * s.params.stepCycles) s = .next t ∧
      (∀ k : Fin 8, t.block.rxbuf[k] = if k.val < n.toNat then listedByte levels k.val else 0) ∧
      t.block.rxcnt = n ∧ t.block.csNQ = true ∧ t.block.sclkQ = false ∧ t.block.mosiQ = a.getLsbD 0 ∧
      t.block.busy = false ∧ t.block.done = true ∧ t.block.err = false ∧ t.misoIn = later

/-- R102, R191: a RECV_BYTE written to CMD in a ready state, with a host that presents no more and a slave that presents
eight levels, ends after its cycles with the byte of those levels in RXBUF[0] and SHREG, the first level in bit 7, 0x00
in RXBUF[1..7], RXCNT = 1, the lines idle with MOSI as it was, and the eight levels used up. (That the slave's levels are
a list that SAMPLEs use up is the model's choice, log entry 3, DESIGN CHOICE.) -/
def Obligations.RecvByteDeliversTheSlavesByte : Prop :=
  ∀ (s : State) (levels later : List Bool), s.Inv → s.Ready →
    s.port = [.access (.write .cmd (encode .recvByte))] → s.misoIn = levels ++ later → levels.length = 8 →
    ∃ t : State, Host.Core.run Sys2Proof.core (1 + scriptLength .recvByte * s.params.stepCycles) s = .next t ∧
      (∀ k : Fin 8, t.block.rxbuf[k] = if k.val = 0 then listedByte levels 0 else 0) ∧
      t.block.shreg = listedByte levels 0 ∧ t.block.rxcnt = 1 ∧ t.block.csNQ = true ∧ t.block.sclkQ = false ∧
      t.block.mosiQ = s.block.mosiQ ∧ t.block.busy = false ∧ t.block.done = true ∧ t.block.err = false ∧
      t.misoIn = later

/-- R189, U6, R130: a reset while CS_N is low ends the select assertion at that edge, the block runs no more, and of the
echo slave nothing is known any more, whatever it had read. Only an edge with a reset cuts one: an assertion that ends at
another edge is completed, and that is with the last micro-step of a WRITE_REG or a READ_REGS. Once nothing is known of a
slave, nothing is known of it for ever. R121, R125, R140: over the clock edges of a command written to CMD in a ready
state, whatever the host presents meanwhile, so long as no reset comes, a WRITE_REG a, #d puts d in the slave's register a
and changes no other; SEND_BYTE, RECV_BYTE and READ_REGS leave its registers as they are; after RELEASE nothing is known
of it (U5). (The echo slave is a harness, no rule of the block: log entry 13, DEDUCED and
DESIGN CHOICE.) -/
def Obligations.ResetCutsTheEchoSlavesTransaction : Prop :=
  (∀ (s : State) (presented : Option Access), s.Inv → s.edgeInput = .rst presented → s.block.csNQ = false →
    ∃ t, step s = .next t ∧ (pins t.block).csN = .high ∧ t.block.busy = false ∧
      Attached.selectEnd s t = some .cut ∧
      ∀ h : Attached.EchoHarness, ∃ before heard, h.edge s t = ⟨.unknown before heard, []⟩) ∧
  (∀ s t : State, Attached.selectEnd s t = some .cut → ∃ presented, s.edgeInput = .rst presented) ∧
  (∀ s t : State, s.Inv → step s = .next t → s.NoResetNext → (pins s.block).csN = .low →
    (pins t.block).csN ≠ .low → Attached.selectEnd s t = some .completed) ∧
  (∀ s t : State, s.Inv → step s = .next t → Attached.selectEnd s t = some .completed →
    s.NoResetNext ∧ s.block.busy = true ∧ (s.block.lop = 0x3#4 ∨ s.block.lop = 0x4#4) ∧
    s.block.upc.toNat + 1 = (script s.block.latch).length ∧ t.block.busy = false ∧ t.block.done = true) ∧
  (∀ (s t : State) (before : Vector Byte 64) (heard : List (Option Bool)) (bits : List Level),
    ∃ more, (Attached.EchoHarness.edge ⟨.unknown before heard, bits⟩ s t).slave = .unknown before (heard ++ more)) ∧
  (∀ (s : State) (i : Instr) (rest : List EdgeInput) (regs : Vector Byte 64) (h : Attached.EchoHarness),
      s.Inv → s.Ready → i.WellFormed → s.port = .access (.write .cmd (encode i)) :: rest → noReset rest →
      h = Attached.EchoHarness.follow ⟨.holding regs, []⟩ (1 + scriptLength i * s.params.stepCycles) s →
      match i with
      | .sendByte _ => h = ⟨.holding regs, []⟩
      | .recvByte => h = ⟨.holding regs, []⟩
      | .writeReg a d => h = ⟨.holding (regs.set a.toNat d a.isLt), []⟩
      | .readRegs _ _ => h = ⟨.holding regs, []⟩
      | .release => ∃ heard, h = ⟨.unknown regs heard, []⟩)
end

