-- ==== Sys2Proof/Laws/State.lean ====
section
/-! SUPPORT. One lemma per field for each update of the block and of the state, true by `rfl`, so that no later proof
unfolds a record update. -/

namespace Sys2Proof.Machine

/-! ### `Block.refuse` -/

@[simp] theorem Block.refuse_csNQ (b : Block) (r : Reason) : (b.refuse r).csNQ = b.csNQ := rfl
@[simp] theorem Block.refuse_sclkQ (b : Block) (r : Reason) : (b.refuse r).sclkQ = b.sclkQ := rfl
@[simp] theorem Block.refuse_mosiQ (b : Block) (r : Reason) : (b.refuse r).mosiQ = b.mosiQ := rfl
@[simp] theorem Block.refuse_released (b : Block) (r : Reason) : (b.refuse r).released = b.released := rfl
@[simp] theorem Block.refuse_busy (b : Block) (r : Reason) : (b.refuse r).busy = b.busy := rfl
@[simp] theorem Block.refuse_done (b : Block) (r : Reason) : (b.refuse r).done = b.done := rfl
@[simp] theorem Block.refuse_err (b : Block) (r : Reason) : (b.refuse r).err = true := rfl
@[simp] theorem Block.refuse_errcode (b : Block) (r : Reason) : (b.refuse r).errcode = r.code := rfl
@[simp] theorem Block.refuse_rxbuf (b : Block) (r : Reason) : (b.refuse r).rxbuf = b.rxbuf := rfl
@[simp] theorem Block.refuse_rxcnt (b : Block) (r : Reason) : (b.refuse r).rxcnt = b.rxcnt := rfl
@[simp] theorem Block.refuse_lop (b : Block) (r : Reason) : (b.refuse r).lop = b.lop := rfl
@[simp] theorem Block.refuse_laddr (b : Block) (r : Reason) : (b.refuse r).laddr = b.laddr := rfl
@[simp] theorem Block.refuse_ldata (b : Block) (r : Reason) : (b.refuse r).ldata = b.ldata := rfl
@[simp] theorem Block.refuse_lcnt (b : Block) (r : Reason) : (b.refuse r).lcnt = b.lcnt := rfl
@[simp] theorem Block.refuse_shreg (b : Block) (r : Reason) : (b.refuse r).shreg = b.shreg := rfl
@[simp] theorem Block.refuse_upc (b : Block) (r : Reason) : (b.refuse r).upc = b.upc := rfl
@[simp] theorem Block.refuse_tick (b : Block) (r : Reason) : (b.refuse r).tick = b.tick := rfl

/-! ### `Block.clearDone` -/

@[simp] theorem Block.clearDone_csNQ (b : Block) : b.clearDone.csNQ = b.csNQ := rfl
@[simp] theorem Block.clearDone_sclkQ (b : Block) : b.clearDone.sclkQ = b.sclkQ := rfl
@[simp] theorem Block.clearDone_mosiQ (b : Block) : b.clearDone.mosiQ = b.mosiQ := rfl
@[simp] theorem Block.clearDone_released (b : Block) : b.clearDone.released = b.released := rfl
@[simp] theorem Block.clearDone_busy (b : Block) : b.clearDone.busy = b.busy := rfl
@[simp] theorem Block.clearDone_done (b : Block) : b.clearDone.done = false := rfl
@[simp] theorem Block.clearDone_err (b : Block) : b.clearDone.err = b.err := rfl
@[simp] theorem Block.clearDone_errcode (b : Block) : b.clearDone.errcode = b.errcode := rfl
@[simp] theorem Block.clearDone_rxbuf (b : Block) : b.clearDone.rxbuf = b.rxbuf := rfl
@[simp] theorem Block.clearDone_rxcnt (b : Block) : b.clearDone.rxcnt = b.rxcnt := rfl
@[simp] theorem Block.clearDone_lop (b : Block) : b.clearDone.lop = b.lop := rfl
@[simp] theorem Block.clearDone_laddr (b : Block) : b.clearDone.laddr = b.laddr := rfl
@[simp] theorem Block.clearDone_ldata (b : Block) : b.clearDone.ldata = b.ldata := rfl
@[simp] theorem Block.clearDone_lcnt (b : Block) : b.clearDone.lcnt = b.lcnt := rfl
@[simp] theorem Block.clearDone_shreg (b : Block) : b.clearDone.shreg = b.shreg := rfl
@[simp] theorem Block.clearDone_upc (b : Block) : b.clearDone.upc = b.upc := rfl
@[simp] theorem Block.clearDone_tick (b : Block) : b.clearDone.tick = b.tick := rfl

/-! ### `Block.flagsAccepted` -/

@[simp] theorem Block.flagsAccepted_csNQ (b : Block) : b.flagsAccepted.csNQ = b.csNQ := rfl
@[simp] theorem Block.flagsAccepted_sclkQ (b : Block) : b.flagsAccepted.sclkQ = b.sclkQ := rfl
@[simp] theorem Block.flagsAccepted_mosiQ (b : Block) : b.flagsAccepted.mosiQ = b.mosiQ := rfl
@[simp] theorem Block.flagsAccepted_released (b : Block) : b.flagsAccepted.released = b.released := rfl
@[simp] theorem Block.flagsAccepted_busy (b : Block) : b.flagsAccepted.busy = true := rfl
@[simp] theorem Block.flagsAccepted_done (b : Block) : b.flagsAccepted.done = b.done := rfl
@[simp] theorem Block.flagsAccepted_err (b : Block) : b.flagsAccepted.err = false := rfl
@[simp] theorem Block.flagsAccepted_errcode (b : Block) : b.flagsAccepted.errcode = 0 := rfl
@[simp] theorem Block.flagsAccepted_rxbuf (b : Block) : b.flagsAccepted.rxbuf = b.rxbuf := rfl
@[simp] theorem Block.flagsAccepted_rxcnt (b : Block) : b.flagsAccepted.rxcnt = b.rxcnt := rfl
@[simp] theorem Block.flagsAccepted_lop (b : Block) : b.flagsAccepted.lop = b.lop := rfl
@[simp] theorem Block.flagsAccepted_laddr (b : Block) : b.flagsAccepted.laddr = b.laddr := rfl
@[simp] theorem Block.flagsAccepted_ldata (b : Block) : b.flagsAccepted.ldata = b.ldata := rfl
@[simp] theorem Block.flagsAccepted_lcnt (b : Block) : b.flagsAccepted.lcnt = b.lcnt := rfl
@[simp] theorem Block.flagsAccepted_shreg (b : Block) : b.flagsAccepted.shreg = b.shreg := rfl
@[simp] theorem Block.flagsAccepted_upc (b : Block) : b.flagsAccepted.upc = b.upc := rfl
@[simp] theorem Block.flagsAccepted_tick (b : Block) : b.flagsAccepted.tick = b.tick := rfl

/-! ### `Block.complete` -/

@[simp] theorem Block.complete_csNQ (b : Block) : b.complete.csNQ = b.csNQ := rfl
@[simp] theorem Block.complete_sclkQ (b : Block) : b.complete.sclkQ = b.sclkQ := rfl
@[simp] theorem Block.complete_mosiQ (b : Block) : b.complete.mosiQ = b.mosiQ := rfl
@[simp] theorem Block.complete_released (b : Block) : b.complete.released = b.released := rfl
@[simp] theorem Block.complete_busy (b : Block) : b.complete.busy = false := rfl
@[simp] theorem Block.complete_done (b : Block) : b.complete.done = true := rfl
@[simp] theorem Block.complete_err (b : Block) : b.complete.err = b.err := rfl
@[simp] theorem Block.complete_errcode (b : Block) : b.complete.errcode = b.errcode := rfl
@[simp] theorem Block.complete_rxbuf (b : Block) : b.complete.rxbuf = b.rxbuf := rfl
@[simp] theorem Block.complete_rxcnt (b : Block) : b.complete.rxcnt = b.rxcnt := rfl
@[simp] theorem Block.complete_lop (b : Block) : b.complete.lop = b.lop := rfl
@[simp] theorem Block.complete_laddr (b : Block) : b.complete.laddr = b.laddr := rfl
@[simp] theorem Block.complete_ldata (b : Block) : b.complete.ldata = b.ldata := rfl
@[simp] theorem Block.complete_lcnt (b : Block) : b.complete.lcnt = b.lcnt := rfl
@[simp] theorem Block.complete_shreg (b : Block) : b.complete.shreg = b.shreg := rfl
@[simp] theorem Block.complete_upc (b : Block) : b.complete.upc = 0 := rfl
@[simp] theorem Block.complete_tick (b : Block) : b.complete.tick = b.tick := rfl

/-! ### `Block.setLatch` -/

@[simp] theorem Block.setLatch_csNQ (b : Block) (l : Latch) : (b.setLatch l).csNQ = b.csNQ := rfl
@[simp] theorem Block.setLatch_sclkQ (b : Block) (l : Latch) : (b.setLatch l).sclkQ = b.sclkQ := rfl
@[simp] theorem Block.setLatch_mosiQ (b : Block) (l : Latch) : (b.setLatch l).mosiQ = b.mosiQ := rfl
@[simp] theorem Block.setLatch_released (b : Block) (l : Latch) : (b.setLatch l).released = b.released := rfl
@[simp] theorem Block.setLatch_busy (b : Block) (l : Latch) : (b.setLatch l).busy = b.busy := rfl
@[simp] theorem Block.setLatch_done (b : Block) (l : Latch) : (b.setLatch l).done = b.done := rfl
@[simp] theorem Block.setLatch_err (b : Block) (l : Latch) : (b.setLatch l).err = b.err := rfl
@[simp] theorem Block.setLatch_errcode (b : Block) (l : Latch) : (b.setLatch l).errcode = b.errcode := rfl
@[simp] theorem Block.setLatch_rxbuf (b : Block) (l : Latch) : (b.setLatch l).rxbuf = b.rxbuf := rfl
@[simp] theorem Block.setLatch_rxcnt (b : Block) (l : Latch) : (b.setLatch l).rxcnt = b.rxcnt := rfl
@[simp] theorem Block.setLatch_lop (b : Block) (l : Latch) : (b.setLatch l).lop = l.op := rfl
@[simp] theorem Block.setLatch_laddr (b : Block) (l : Latch) : (b.setLatch l).laddr = l.addr := rfl
@[simp] theorem Block.setLatch_ldata (b : Block) (l : Latch) : (b.setLatch l).ldata = l.data := rfl
@[simp] theorem Block.setLatch_lcnt (b : Block) (l : Latch) : (b.setLatch l).lcnt = l.cnt := rfl
@[simp] theorem Block.setLatch_shreg (b : Block) (l : Latch) : (b.setLatch l).shreg = b.shreg := rfl
@[simp] theorem Block.setLatch_upc (b : Block) (l : Latch) : (b.setLatch l).upc = b.upc := rfl
@[simp] theorem Block.setLatch_tick (b : Block) (l : Latch) : (b.setLatch l).tick = b.tick := rfl

/-! ### `Block.clearRx` -/

@[simp] theorem Block.clearRx_csNQ (b : Block) : b.clearRx.csNQ = b.csNQ := rfl
@[simp] theorem Block.clearRx_sclkQ (b : Block) : b.clearRx.sclkQ = b.sclkQ := rfl
@[simp] theorem Block.clearRx_mosiQ (b : Block) : b.clearRx.mosiQ = b.mosiQ := rfl
@[simp] theorem Block.clearRx_released (b : Block) : b.clearRx.released = b.released := rfl
@[simp] theorem Block.clearRx_busy (b : Block) : b.clearRx.busy = b.busy := rfl
@[simp] theorem Block.clearRx_done (b : Block) : b.clearRx.done = b.done := rfl
@[simp] theorem Block.clearRx_err (b : Block) : b.clearRx.err = b.err := rfl
@[simp] theorem Block.clearRx_errcode (b : Block) : b.clearRx.errcode = b.errcode := rfl
@[simp] theorem Block.clearRx_rxbuf (b : Block) : b.clearRx.rxbuf = Vector.replicate 8 0 := rfl
@[simp] theorem Block.clearRx_rxcnt (b : Block) : b.clearRx.rxcnt = 0 := rfl
@[simp] theorem Block.clearRx_lop (b : Block) : b.clearRx.lop = b.lop := rfl
@[simp] theorem Block.clearRx_laddr (b : Block) : b.clearRx.laddr = b.laddr := rfl
@[simp] theorem Block.clearRx_ldata (b : Block) : b.clearRx.ldata = b.ldata := rfl
@[simp] theorem Block.clearRx_lcnt (b : Block) : b.clearRx.lcnt = b.lcnt := rfl
@[simp] theorem Block.clearRx_shreg (b : Block) : b.clearRx.shreg = b.shreg := rfl
@[simp] theorem Block.clearRx_upc (b : Block) : b.clearRx.upc = b.upc := rfl
@[simp] theorem Block.clearRx_tick (b : Block) : b.clearRx.tick = b.tick := rfl

/-! ### `Block.accept` -/

@[simp] theorem Block.accept_csNQ (b : Block) (l : Latch) : (b.accept l).csNQ = b.csNQ := rfl
@[simp] theorem Block.accept_sclkQ (b : Block) (l : Latch) : (b.accept l).sclkQ = b.sclkQ := rfl
@[simp] theorem Block.accept_mosiQ (b : Block) (l : Latch) : (b.accept l).mosiQ = b.mosiQ := rfl
@[simp] theorem Block.accept_released (b : Block) (l : Latch) : (b.accept l).released = b.released := rfl
@[simp] theorem Block.accept_busy (b : Block) (l : Latch) : (b.accept l).busy = true := rfl
@[simp] theorem Block.accept_done (b : Block) (l : Latch) : (b.accept l).done = b.done := rfl
@[simp] theorem Block.accept_err (b : Block) (l : Latch) : (b.accept l).err = false := rfl
@[simp] theorem Block.accept_errcode (b : Block) (l : Latch) : (b.accept l).errcode = 0 := rfl
@[simp] theorem Block.accept_rxbuf (b : Block) (l : Latch) : (b.accept l).rxbuf = b.rxbuf := rfl
@[simp] theorem Block.accept_rxcnt (b : Block) (l : Latch) : (b.accept l).rxcnt = b.rxcnt := rfl
@[simp] theorem Block.accept_lop (b : Block) (l : Latch) : (b.accept l).lop = l.op := rfl
@[simp] theorem Block.accept_laddr (b : Block) (l : Latch) : (b.accept l).laddr = l.addr := rfl
@[simp] theorem Block.accept_ldata (b : Block) (l : Latch) : (b.accept l).ldata = l.data := rfl
@[simp] theorem Block.accept_lcnt (b : Block) (l : Latch) : (b.accept l).lcnt = l.cnt := rfl
@[simp] theorem Block.accept_shreg (b : Block) (l : Latch) : (b.accept l).shreg = b.shreg := rfl
@[simp] theorem Block.accept_upc (b : Block) (l : Latch) : (b.accept l).upc = 0 := rfl
@[simp] theorem Block.accept_tick (b : Block) (l : Latch) : (b.accept l).tick = 0 := rfl

/-! ### `Block.acceptReceive` -/

@[simp] theorem Block.acceptReceive_csNQ (b : Block) (l : Latch) : (b.acceptReceive l).csNQ = b.csNQ := rfl
@[simp] theorem Block.acceptReceive_sclkQ (b : Block) (l : Latch) : (b.acceptReceive l).sclkQ = b.sclkQ := rfl
@[simp] theorem Block.acceptReceive_mosiQ (b : Block) (l : Latch) : (b.acceptReceive l).mosiQ = b.mosiQ := rfl
@[simp] theorem Block.acceptReceive_released (b : Block) (l : Latch) : (b.acceptReceive l).released = b.released := rfl
@[simp] theorem Block.acceptReceive_busy (b : Block) (l : Latch) : (b.acceptReceive l).busy = true := rfl
@[simp] theorem Block.acceptReceive_done (b : Block) (l : Latch) : (b.acceptReceive l).done = b.done := rfl
@[simp] theorem Block.acceptReceive_err (b : Block) (l : Latch) : (b.acceptReceive l).err = false := rfl
@[simp] theorem Block.acceptReceive_errcode (b : Block) (l : Latch) : (b.acceptReceive l).errcode = 0 := rfl
@[simp] theorem Block.acceptReceive_rxbuf (b : Block) (l : Latch) : (b.acceptReceive l).rxbuf = Vector.replicate 8 0 := rfl
@[simp] theorem Block.acceptReceive_rxcnt (b : Block) (l : Latch) : (b.acceptReceive l).rxcnt = 0 := rfl
@[simp] theorem Block.acceptReceive_lop (b : Block) (l : Latch) : (b.acceptReceive l).lop = l.op := rfl
@[simp] theorem Block.acceptReceive_laddr (b : Block) (l : Latch) : (b.acceptReceive l).laddr = l.addr := rfl
@[simp] theorem Block.acceptReceive_ldata (b : Block) (l : Latch) : (b.acceptReceive l).ldata = l.data := rfl
@[simp] theorem Block.acceptReceive_lcnt (b : Block) (l : Latch) : (b.acceptReceive l).lcnt = l.cnt := rfl
@[simp] theorem Block.acceptReceive_shreg (b : Block) (l : Latch) : (b.acceptReceive l).shreg = b.shreg := rfl
@[simp] theorem Block.acceptReceive_upc (b : Block) (l : Latch) : (b.acceptReceive l).upc = 0 := rfl
@[simp] theorem Block.acceptReceive_tick (b : Block) (l : Latch) : (b.acceptReceive l).tick = 0 := rfl

/-! ### `Block.commitByte` -/

@[simp] theorem Block.commitByte_csNQ (b : Block) (k : Fin 8) (v : Byte) : (b.commitByte k v).csNQ = b.csNQ := rfl
@[simp] theorem Block.commitByte_sclkQ (b : Block) (k : Fin 8) (v : Byte) : (b.commitByte k v).sclkQ = b.sclkQ := rfl
@[simp] theorem Block.commitByte_mosiQ (b : Block) (k : Fin 8) (v : Byte) : (b.commitByte k v).mosiQ = b.mosiQ := rfl
@[simp] theorem Block.commitByte_released (b : Block) (k : Fin 8) (v : Byte) : (b.commitByte k v).released = b.released := rfl
@[simp] theorem Block.commitByte_busy (b : Block) (k : Fin 8) (v : Byte) : (b.commitByte k v).busy = b.busy := rfl
@[simp] theorem Block.commitByte_done (b : Block) (k : Fin 8) (v : Byte) : (b.commitByte k v).done = b.done := rfl
@[simp] theorem Block.commitByte_err (b : Block) (k : Fin 8) (v : Byte) : (b.commitByte k v).err = b.err := rfl
@[simp] theorem Block.commitByte_errcode (b : Block) (k : Fin 8) (v : Byte) : (b.commitByte k v).errcode = b.errcode := rfl
@[simp] theorem Block.commitByte_rxbuf (b : Block) (k : Fin 8) (v : Byte) : (b.commitByte k v).rxbuf = b.rxbuf.set k v := rfl
@[simp] theorem Block.commitByte_rxcnt (b : Block) (k : Fin 8) (v : Byte) : (b.commitByte k v).rxcnt = BitVec.ofNat 4 (k.val + 1) := rfl
@[simp] theorem Block.commitByte_lop (b : Block) (k : Fin 8) (v : Byte) : (b.commitByte k v).lop = b.lop := rfl
@[simp] theorem Block.commitByte_laddr (b : Block) (k : Fin 8) (v : Byte) : (b.commitByte k v).laddr = b.laddr := rfl
@[simp] theorem Block.commitByte_ldata (b : Block) (k : Fin 8) (v : Byte) : (b.commitByte k v).ldata = b.ldata := rfl
@[simp] theorem Block.commitByte_lcnt (b : Block) (k : Fin 8) (v : Byte) : (b.commitByte k v).lcnt = b.lcnt := rfl
@[simp] theorem Block.commitByte_shreg (b : Block) (k : Fin 8) (v : Byte) : (b.commitByte k v).shreg = b.shreg := rfl
@[simp] theorem Block.commitByte_upc (b : Block) (k : Fin 8) (v : Byte) : (b.commitByte k v).upc = b.upc := rfl
@[simp] theorem Block.commitByte_tick (b : Block) (k : Fin 8) (v : Byte) : (b.commitByte k v).tick = b.tick := rfl

/-! ### `State.commandWrite` -/

@[simp] theorem State.commandWrite_block (s : State) (k : Block → Block) :
    (s.commandWrite k).block = s.block.commandWrite k :=
    rfl
@[simp] theorem State.commandWrite_rdata (s : State) (k : Block → Block) : (s.commandWrite k).rdata = s.rdata := rfl
@[simp] theorem State.commandWrite_params (s : State) (k : Block → Block) : (s.commandWrite k).params = s.params :=
    rfl
@[simp] theorem State.commandWrite_port (s : State) (k : Block → Block) : (s.commandWrite k).port = s.port := rfl
@[simp] theorem State.commandWrite_misoIn (s : State) (k : Block → Block) : (s.commandWrite k).misoIn = s.misoIn :=
    rfl
@[simp] theorem State.commandWrite_draws (s : State) (k : Block → Block) : (s.commandWrite k).draws = s.draws := rfl

/-! ### `State.resetEdge` -/

@[simp] theorem State.resetEdge_block (s : State) : s.resetEdge.block = Block.reset := rfl
@[simp] theorem State.resetEdge_rdata (s : State) : s.resetEdge.rdata = s.rdata := rfl
@[simp] theorem State.resetEdge_params (s : State) : s.resetEdge.params = s.params := rfl
@[simp] theorem State.resetEdge_port (s : State) : s.resetEdge.port = s.port := rfl
@[simp] theorem State.resetEdge_misoIn (s : State) : s.resetEdge.misoIn = s.misoIn := rfl
@[simp] theorem State.resetEdge_draws (s : State) : s.resetEdge.draws = s.draws := rfl

/-! ### `State.tickUp` -/

@[simp] theorem State.tickUp_block (s : State) : s.tickUp.block = { s.block with tick := s.block.tick + 1 } := rfl
@[simp] theorem State.tickUp_rdata (s : State) : s.tickUp.rdata = s.rdata := rfl
@[simp] theorem State.tickUp_params (s : State) : s.tickUp.params = s.params := rfl
@[simp] theorem State.tickUp_port (s : State) : s.tickUp.port = s.port := rfl
@[simp] theorem State.tickUp_misoIn (s : State) : s.tickUp.misoIn = s.misoIn := rfl
@[simp] theorem State.tickUp_draws (s : State) : s.tickUp.draws = s.draws := rfl

/-! ### `State.passEdge` -/

@[simp] theorem State.passEdge_block (s : State) : s.passEdge.block = s.block := rfl
@[simp] theorem State.passEdge_rdata (s : State) : s.passEdge.rdata = s.rdataAt s.edgeInput := rfl
@[simp] theorem State.passEdge_params (s : State) : s.passEdge.params = s.params := rfl
@[simp] theorem State.passEdge_port (s : State) : s.passEdge.port = s.portAfter := rfl
@[simp] theorem State.passEdge_misoIn (s : State) : s.passEdge.misoIn = s.misoIn := rfl
@[simp] theorem State.passEdge_draws (s : State) : s.passEdge.draws = s.draws + 1 := rfl

/-! ### `State.withFetchWord` -/

@[simp] theorem State.withFetchWord_block (s : State) (nbits w : Nat) : (s.withFetchWord nbits w).block = s.block :=
    rfl
@[simp] theorem State.withFetchWord_rdata (s : State) (nbits w : Nat) : (s.withFetchWord nbits w).rdata = s.rdata :=
    rfl
@[simp] theorem State.withFetchWord_params (s : State) (nbits w : Nat) : (s.withFetchWord nbits w).params = s.params :=
    rfl
@[simp] theorem State.withFetchWord_port (s : State) (nbits w : Nat) :
    (s.withFetchWord nbits w).port = .access (.write .cmd (BitVec.ofNat 32 (w % 2 ^ nbits))) :: s.port :=
    rfl
@[simp] theorem State.withFetchWord_misoIn (s : State) (nbits w : Nat) : (s.withFetchWord nbits w).misoIn = s.misoIn :=
    rfl
@[simp] theorem State.withFetchWord_draws (s : State) (nbits w : Nat) : (s.withFetchWord nbits w).draws = s.draws :=
    rfl

end Sys2Proof.Machine
end

