-- ==== Sys2Proof/Laws/Ops.lean ====
section
/-! SUPPORT. One lemma for each shared operation of the block that says once what it can do: a command write, the
effect of a micro-operation, the receive shift and the pins. -/

namespace Sys2Proof.Machine

/-! ### A command write (R151, R152) -/

theorem Block.commandWrite_of_busy {b : Block} (k : Block → Block) (h : b.busy = true) :
    b.commandWrite k = b.refuse .busy := by
  simp [Block.commandWrite, h]

theorem Block.commandWrite_of_released {b : Block} (k : Block → Block) (h : b.busy = false) (hr : b.released = true) :
    b.commandWrite k = b.clearDone.refuse .released := by
  simp [Block.commandWrite, Block.refuseIfReleased, h, hr]

theorem Block.commandWrite_of_ready {b : Block} (k : Block → Block) (h : b.busy = false) (hr : b.released = false) :
    b.commandWrite k = k b.clearDone := by
  simp [Block.commandWrite, Block.refuseIfReleased, h, hr]

/-- Everything a command write can do. -/
theorem Block.commandWrite_cases (b : Block) (k : Block → Block) :
    (b.busy = true ∧ b.commandWrite k = b.refuse .busy) ∨
    (b.busy = false ∧ b.released = true ∧ b.commandWrite k = b.clearDone.refuse .released) ∨
    (b.busy = false ∧ b.released = false ∧ b.commandWrite k = k b.clearDone) := by
  cases hb : b.busy
  · cases hr : b.released
    · exact .inr (.inr ⟨rfl, rfl, Block.commandWrite_of_ready k hb hr⟩)
    · exact .inr (.inl ⟨rfl, rfl, Block.commandWrite_of_released k hb hr⟩)
  · exact .inl ⟨rfl, Block.commandWrite_of_busy k hb⟩

/-! ### Micro-operations (R92 to R96) -/

/-- SAMPLE of a byte that is not complete writes SHREG alone (R95). -/
theorem Block.sample_of_not_last (b : Block) (k : Fin 8) (m : Bool) :
    b.sample k false m = { b with shreg := shiftIn b.shreg m } := rfl

/-- The last SAMPLE of a byte writes SHREG, RXBUF[k] and RXCNT (R95). -/
theorem Block.sample_of_last (b : Block) (k : Fin 8) (m : Bool) :
    b.sample k true m =
      { b with shreg := shiftIn b.shreg m, rxbuf := b.rxbuf.set k (shiftIn b.shreg m),
               rxcnt := BitVec.ofNat 4 (k.val + 1) } := rfl

/-- No micro-operation writes a flag but RELEASED, a latched field, UPC or TICK (R57, R92 to R96). -/
theorem perform_keeps (op : MicroOp) (m : Bool) (b : Block) :
    (perform op m b).busy = b.busy ∧ (perform op m b).done = b.done ∧ (perform op m b).err = b.err ∧
    (perform op m b).errcode = b.errcode ∧ (perform op m b).latch = b.latch ∧ (perform op m b).upc = b.upc ∧
    (perform op m b).tick = b.tick := by
  cases op with
  | sample k last => cases last <;> simp [perform, Block.sample, Block.latch]
  | cs v => simp [perform, Block.latch]
  | clk v => simp [perform, Block.latch]
  | dout v => simp [perform, Block.latch]
  | rel => simp [perform, Block.latch]

/-- Only a SAMPLE sees MISO (R98, R106). -/
theorem perform_miso_irrelevant {op : MicroOp} (h : op.samples = false) (m m' : Bool) (b : Block) :
    perform op m b = perform op m' b := by
  cases op <;> simp_all [perform, MicroOp.samples]

/-- A micro-operation that samples changes only the receive side (R95). -/
theorem perform_sample_keeps_lines (k : Fin 8) (last m : Bool) (b : Block) :
    (perform (.sample k last) m b).csNQ = b.csNQ ∧ (perform (.sample k last) m b).sclkQ = b.sclkQ ∧
    (perform (.sample k last) m b).mosiQ = b.mosiQ ∧ (perform (.sample k last) m b).released = b.released := by
  cases last <;> simp [perform, Block.sample]

/-! ### The receive shift (R95, R109) -/

/-- Bit 0 of the shifted register is the sample and bit j+1 is the old bit j. -/
theorem shiftIn_getLsbD (sh : Byte) (m : Bool) (j : Nat) :
    (shiftIn sh m).getLsbD j = if j = 0 then m else decide (j < 8) && sh.getLsbD (j - 1) := by
  rcases j with _ | j
  · simp [shiftIn]
  · simp [shiftIn, BitVec.getLsbD_shiftLeft]

/-! ### Pins (R24) -/

theorem pins_of_owned {b : Block} (h : b.released = false) :
    pins b = ⟨drivenLevel b.csNQ, drivenLevel b.sclkQ, drivenLevel b.mosiQ⟩ := by
  simp [pins, pinLevel, h]

/-- The pins are a function of the latches and RELEASED alone. -/
theorem pins_congr {b b' : Block} (hr : b.released = b'.released) (hc : b.csNQ = b'.csNQ) (hs : b.sclkQ = b'.sclkQ)
    (hm : b.mosiQ = b'.mosiQ) : pins b = pins b' := by
  simp [pins, pinLevel, hr, hc, hs, hm]

end Sys2Proof.Machine
end

