-- ==== Sys2Proof/Laws/PerInstr.lean ====
section
/-! SUPPORT. The statements made per instruction: the fields of an encoded command (R70, R80), one lemma for each
constructor of `Instr`. The latched fields of an accepted command are these (R32). -/

namespace Sys2Proof.Laws.EncodeFields

open Sys2Proof.Machine

/-- The operand fields that a command's meaning latches (R32, R72). -/
def fieldsOf : Instr → Latch
  | .sendByte d => ⟨0x1#4, 0, 0, d⟩
  | .recvByte => ⟨0x2#4, 0, 0, 0⟩
  | .writeReg a d => ⟨0x3#4, 0, a, d⟩
  | .readRegs a n => ⟨0x4#4, n, a, 0⟩
  | .release => ⟨0x5#4, 0, 0, 0⟩

/-- The fields of the encoded word are the command's opcode and operands, and its reserved field is 0. -/
def Statement (i : Instr) : Prop := latchOfWord (encode i) = fieldsOf i ∧ rsvField (encode i) = 0

theorem sendByte (d : Byte) : Statement (.sendByte d) := by
  simp only [Statement, latchOfWord, fieldsOf, opField, cntField, addrField, dataField, rsvField, encode, Latch.mk.injEq]
  refine ⟨⟨?_, ?_, ?_, ?_⟩, ?_⟩ <;> (ext i hi; simp; try interval_cases i <;> simp)

theorem recvByte : Statement .recvByte := by
  unfold Statement
  decide

theorem writeReg (a : RegAddr) (d : Byte) : Statement (.writeReg a d) := by
  simp only [Statement, latchOfWord, fieldsOf, opField, cntField, addrField, dataField, rsvField, encode, Latch.mk.injEq]
  refine ⟨⟨?_, ?_, ?_, ?_⟩, ?_⟩ <;> (ext i hi; simp; try interval_cases i <;> simp)

theorem readRegs (a : RegAddr) (n : Nibble) : Statement (.readRegs a n) := by
  simp only [Statement, latchOfWord, fieldsOf, opField, cntField, addrField, dataField, rsvField, encode, Latch.mk.injEq]
  refine ⟨⟨?_, ?_, ?_, ?_⟩, ?_⟩ <;> (ext i hi; simp; try interval_cases i <;> simp)

theorem release : Statement .release := by
  unfold Statement
  decide

end Sys2Proof.Laws.EncodeFields
end

