-- ==== Sys2Proof/Laws/Script.lean ====
section
/-! SUPPORT. The scripts: their lengths (R127) and the script of each latched command (R91). -/

namespace Sys2Proof.Machine

@[simp] theorem sendBits_length (v : Byte) : (sendBits v).length = 24 := by
  simp [sendBits, wireBits, sendBit]

@[simp] theorem recvBits_length (k : Fin 8) : (recvBits k).length = 24 := by
  simp [recvBits, recvBit]

@[simp] theorem slots_length (n : Nat) : (slots n).length = min n 8 := by
  simp [slots]

theorem script_sendByte (cnt : Nibble) (addr : RegAddr) (data : Byte) :
    script ⟨0x1#4, cnt, addr, data⟩ = sendByteScript data := rfl

theorem script_recvByte (cnt : Nibble) (addr : RegAddr) (data : Byte) :
    script ⟨0x2#4, cnt, addr, data⟩ = recvByteScript := rfl

theorem script_writeReg (cnt : Nibble) (addr : RegAddr) (data : Byte) :
    script ⟨0x3#4, cnt, addr, data⟩ = writeRegScript addr data := rfl

theorem script_readRegs (cnt : Nibble) (addr : RegAddr) (data : Byte) :
    script ⟨0x4#4, cnt, addr, data⟩ = readRegsScript addr cnt := rfl

theorem script_release (cnt : Nibble) (addr : RegAddr) (data : Byte) :
    script ⟨0x5#4, cnt, addr, data⟩ = releaseScript := rfl

theorem sendByteScript_length (data : Byte) : (sendByteScript data).length = 24 := sendBits_length data

theorem recvByteScript_length : recvByteScript.length = 24 := recvBits_length 0

theorem writeRegScript_length (addr : RegAddr) (data : Byte) : (writeRegScript addr data).length = 50 := by
  simp [writeRegScript]

theorem readRegsScript_length (addr : RegAddr) (count : Nibble) :
    (readRegsScript addr count).length = 26 + 24 * min count.toNat 8 := by
  have h : ∀ l : List (Fin 8), (l.flatMap recvBits).length = 24 * l.length := by
    intro l
    induction l with
    | nil => rfl
    | cons k l ih => rw [List.flatMap_cons, List.length_append, recvBits_length, ih, List.length_cons]; omega
  simp only [readRegsScript, List.length_append, h, slots_length, sendBits_length, List.length_cons, List.length_nil]
  omega

/-- No script is longer than READ_REGS with count 8 (R33). -/
theorem script_length_le (l : Latch) : (script l).length ≤ 218 := by
  unfold script
  split
  · rw [sendByteScript_length]; omega
  · rw [recvByteScript_length]; omega
  · rw [writeRegScript_length]; omega
  · rw [readRegsScript_length]; omega
  · simp [releaseScript]
  · simp

end Sys2Proof.Machine
end

