-- ==== Sys2Proof/Laws/Sequencer.lean ====
section
/-! SUPPORT. What the sequencer and a clock edge can do, said once: one lemma for the micro-step (R97), one for the
timer (R35), one for a write to CMD (R151) and one for each kind of edge (R156). -/

namespace Sys2Proof.Machine

/-! ### The micro-step (R97) -/

/-- The block's micro-step, when UPC names a micro-operation. -/
theorem Block.microStep_of_due {b : Block} {op : MicroOp} (h : b.dueOp = some op) (m : Bool) :
    b.microStep m = some { (perform op m b).advance with tick := 0 } := by
  simp [Block.microStep, h]

/-- UPC names a micro-operation exactly when it is below the length of the script. -/
theorem Block.dueOp_isSome_iff (b : Block) : b.dueOp.isSome = true ↔ b.upc.toNat < (script b.latch).length := by
  simp [Block.dueOp]

/-- Everything a machine micro-step can do: the block's micro-step with the slave's level, or the one fault. -/
theorem State.microStep_cases (s : State) :
    (s.block.dueOp = none ∧ s.microStep = .fault .noMicroOp) ∨
    ∃ op, s.block.dueOp = some op ∧
      s.microStep = .next { s with
        block := { (perform op s.misoLevel s.block).advance with tick := 0 }
        misoIn := s.misoAfter op } := by
  cases h : s.block.dueOp with
  | none => exact .inl ⟨rfl, by simp [State.microStep, h]⟩
  | some op => exact .inr ⟨op, rfl, by simp [State.microStep, h]⟩

/-! ### The timer (R35) -/

theorem State.sequence_of_last {s : State} (h : s.block.tick = s.params.lastTick) : s.sequence = s.microStep := by
  simp [State.sequence, h]

theorem State.sequence_of_not_last {s : State} (h : s.block.tick ≠ s.params.lastTick) :
    s.sequence = .next s.tickUp := by
  simp [State.sequence, h]

/-! ### A clock edge (R156) -/

@[simp] theorem sequenceAfter_idle (t : State) : sequenceAfter false (.next t) = .next t := rfl

@[simp] theorem sequenceAfter_busy (t : State) : sequenceAfter true (.next t) = t.sequence := rfl

/-- What a reset edge does. -/
theorem step_of_rst {s : State} {a : Option Access} (h : s.edgeInput = .rst a) :
    step s = .next s.passEdge.resetEdge := by
  simp [step, clockEdge, h]

/-- What an edge with a write to CMD does. -/
theorem step_of_write {s : State} {w : Word} (h : s.edgeInput = .access (.write .cmd w)) :
    step s = sequenceAfter s.block.busy (writeCmd w s.passEdge) := by
  simp [step, clockEdge, h, hostAccess]

/-- What every other edge does: no access, a POLL, a read, or a write that is ignored. -/
theorem step_of_quiet {s : State} (hr : ∀ a, s.edgeInput ≠ .rst a)
    (hw : ∀ w, s.edgeInput ≠ .access (.write .cmd w)) :
    step s = sequenceAfter s.block.busy (.next s.passEdge) := by
  unfold step clockEdge
  cases h : s.edgeInput with
  | idle => rfl
  | poll => rfl
  | rst a => exact absurd h (hr a)
  | access a =>
    cases a with
    | read r => rfl
    | write r w =>
      cases r with
      | cmd => exact absurd h (hw w)
      | status => rfl
      | rxdata0 => rfl
      | rxdata1 => rfl

/-- What a write to CMD of any word can do: one command write of the block, which the meaning of the command or the
refusal of the word completes. -/
theorem writeCmd_is_commandWrite (w : Word) (s : State) :
    ∃ k : Block → Block, writeCmd w s = .next (s.commandWrite k) ∧
      ((∃ i l, decode w = .cmd i ∧ ((k = fun b => b.accept l) ∨ k = fun b => b.acceptReceive l)) ∨
        ∃ r, k = fun b => b.refuse r) := by
  unfold writeCmd
  cases h : decode w with
  | illegal => exact ⟨_, rfl, .inr ⟨_, rfl⟩⟩
  | badCount => exact ⟨_, rfl, .inr ⟨_, rfl⟩⟩
  | cmd i =>
    cases i with
    | sendByte d => exact ⟨_, rfl, .inl ⟨_, _, rfl, .inl rfl⟩⟩
    | recvByte => exact ⟨_, rfl, .inl ⟨_, _, rfl, .inr rfl⟩⟩
    | writeReg a d => exact ⟨_, rfl, .inl ⟨_, _, rfl, .inl rfl⟩⟩
    | readRegs a n =>
      by_cases hn : n ≤ Config.cntMax
      · exact ⟨fun b => b.acceptReceive ⟨0x4#4, n, a, 0#8⟩, by simp [exec, execReadRegs, hn],
          .inl ⟨_, _, rfl, .inr rfl⟩⟩
      · exact ⟨fun b => b.refuse .count, by simp [exec, execReadRegs, hn], .inr ⟨_, rfl⟩⟩
    | release => exact ⟨_, rfl, .inl ⟨_, _, rfl, .inl rfl⟩⟩

/-- A command write refused because BUSY = 1 writes only ERR and ERRCODE, so the micro-step after it is the one there
would have been (R154, R156). -/
theorem refuse_then_advance (b : Block) (r : Reason) (op : MicroOp) (m : Bool) :
    (perform op m (b.refuse r)).advance = (perform op m b).advance.refuse r := by
  have hl : (b.refuse r).latch = b.latch := rfl
  have k1 := perform_keeps op m b
  have k2 := perform_keeps op m (b.refuse r)
  have hp : perform op m (b.refuse r) = (perform op m b).refuse r := by
    cases op with
    | sample k last => cases last <;> rfl
    | cs v => rfl
    | clk v => rfl
    | dout v => rfl
    | rel => rfl
  rw [hp]
  have hlat : ((perform op m b).refuse r).latch = (perform op m b).latch := rfl
  unfold Block.advance
  rw [hlat]
  by_cases h : (perform op m b).upc.toNat + 1 = (script (perform op m b).latch).length
  · simp only [Block.refuse_upc, h, if_true]; rfl
  · simp only [Block.refuse_upc, h, if_false]; rfl

end Sys2Proof.Machine
end

