-- ==== Sys2Proof/Laws/Safety.lean ====
section
/-! SUPPORT. The small lemmas of the words of the statements: the counts and the lines over a list of micro-operations,
and everything the echo slave harness does with a select assertion. -/

namespace Sys2Proof.Machine

/-! ### Micro-operations performed so far -/

@[simp] theorem samplesIn_nil : samplesIn [] = 0 := rfl

theorem samplesIn_append (ops ops' : List MicroOp) : samplesIn (ops ++ ops') = samplesIn ops + samplesIn ops' := by
  simp [samplesIn]

@[simp] theorem bytesCommitted_nil : bytesCommitted [] = 0 := rfl

theorem bytesCommitted_append (ops ops' : List MicroOp) :
    bytesCommitted (ops ++ ops') = bytesCommitted ops + bytesCommitted ops' := by
  simp [bytesCommitted]

@[simp] theorem linesAfter_nil : linesAfter [] = (true, false) := rfl

theorem linesAfter_concat (ops : List MicroOp) (op : MicroOp) :
    linesAfter (ops ++ [op]) = lineStep (linesAfter ops) op := by
  simp [linesAfter]

/-- A micro-operation moves the select and clock latches as `lineStep` says (R92 to R96). -/
theorem perform_lines (op : MicroOp) (m : Bool) (b : Block) :
    ((perform op m b).csNQ, (perform op m b).sclkQ) = lineStep (b.csNQ, b.sclkQ) op := by
  cases op with
  | sample k last => cases last <;> rfl
  | cs v => rfl
  | clk v => rfl
  | dout v => rfl
  | rel => rfl

/-- A step through the script: what has been performed after a micro-operation is what had been, and that one. -/
theorem take_succ_of_due {b : Block} {op : MicroOp} (h : b.dueOp = some op) :
    (script b.latch).take (b.upc.toNat + 1) = b.performed ++ [op] := by
  unfold Block.dueOp at h
  simp [Block.performed, List.take_add_one, h]

/-! ### The echo slave -/

namespace Attached

@[simp] theorem EchoSlave.forget_holding (regs : Vector Byte 64) (levels : List Level) :
    (EchoSlave.holding regs).forget levels = .unknown regs (levels.map lineBit) := rfl

@[simp] theorem EchoSlave.forget_unknown (before : Vector Byte 64) (heard : List (Option Bool)) (levels : List Level) :
    (EchoSlave.unknown before heard).forget levels = .unknown before (heard ++ levels.map lineBit) := rfl

/-- Everything the echo slave does with a completed select assertion: the write of a whole write, nothing for a whole
read, nothing known any more after another form. -/
theorem EchoSlave.hear_completed_cases (regs : Vector Byte 64) (bits : List Level) :
    (wholeWrite bits = true ∧ (EchoSlave.holding regs).hear .completed bits =
      .holding (regs.set ((byteOfLevels (bits.take 8)).toNat % 64) (byteOfLevels (bits.drop 8))
        (Nat.mod_lt _ (by decide)))) ∨
    (wholeWrite bits = false ∧ wholeRead bits = true ∧
      (EchoSlave.holding regs).hear .completed bits = .holding regs) ∨
    (wholeWrite bits = false ∧ wholeRead bits = false ∧
      (EchoSlave.holding regs).hear .completed bits = (EchoSlave.holding regs).forget bits) := by
  cases hw : wholeWrite bits
  · cases hr : wholeRead bits
    · exact .inr (.inr ⟨rfl, rfl, by simp [EchoSlave.hear, hw, hr]⟩)
    · exact .inr (.inl ⟨rfl, rfl, by simp [EchoSlave.hear, hw, hr]⟩)
  · exact .inl ⟨rfl, by simp [EchoSlave.hear, hw]⟩

@[simp] theorem EchoSlave.hear_cut (e : EchoSlave) (bits : List Level) : e.hear .cut bits = e.forget bits := by
  cases e <;> rfl

@[simp] theorem EchoSlave.hear_unknown (before : Vector Byte 64) (heard : List (Option Bool)) (ended : SelectEnd)
    (bits : List Level) :
    (EchoSlave.unknown before heard).hear ended bits = (EchoSlave.unknown before heard).forget bits := rfl

/-- A select assertion ends exactly where CS_N leaves low. -/
theorem selectEnd_isSome (s t : State) :
    (selectEnd s t).isSome = ((pins s.block).csN == .low && (pins t.block).csN != .low) := by
  unfold selectEnd
  cases (pins s.block).csN == .low && (pins t.block).csN != .low <;> cases s.edgeInput <;> rfl

theorem EchoHarness.edge_of_undriven (h : EchoHarness) {s t : State} (hz : (pins t.block).csN = .z) :
    h.edge s t =
      ⟨h.slave.forget (h.bits ++ selectedBits [pins s.block, pins t.block] ++ [(pins t.block).mosi]), []⟩ := by
  simp [EchoHarness.edge, hz]

theorem EchoHarness.edge_of_selectEnd_none (h : EchoHarness) {s t : State} (hd : (pins t.block).csN ≠ .z)
    (hn : selectEnd s t = none) :
    h.edge s t = { h with bits := h.bits ++ selectedBits [pins s.block, pins t.block] } := by
  simp [EchoHarness.edge, hd, hn]

theorem EchoHarness.edge_of_selectEnd_some (h : EchoHarness) {s t : State} {ended : SelectEnd}
    (hd : (pins t.block).csN ≠ .z) (hs : selectEnd s t = some ended) :
    h.edge s t = ⟨h.slave.hear ended (h.bits ++ selectedBits [pins s.block, pins t.block]), []⟩ := by
  simp [EchoHarness.edge, hd, hs]

@[simp] theorem EchoHarness.follow_zero (h : EchoHarness) (s : State) : h.follow 0 s = h := rfl

theorem EchoHarness.follow_succ_of_next (h : EchoHarness) {s t : State} (n : Nat) (hs : step s = .next t) :
    h.follow (n + 1) s = (h.edge s t).follow n t := by
  simp [EchoHarness.follow, hs]

end Attached

end Sys2Proof.Machine
end

