-- ==== Sys2Proof/Tests/Slice0.lean ====
section
/-! SUPPORT. The model's own tests. Expected values are the spec's (spec/95_test_vectors.md L2, and words written out
from spec/30_encoding.md R70 and R72); a `witness_` theorem shows a concrete state and operands that meet all the
hypotheses of the statement it names, or of one of its clauses at a boundary value. -/

namespace Sys2Proof.Tests

open Sys2Proof.Machine

/-! ### Helpers -/

/-- The state of a next outcome. -/
def after (o : Host.Outcome State Fault Refusal) : State :=
  match o with
  | .next t => t
  | .fault _ => State.reset
  | .refused _ => State.reset

/-- The reset state with STEP_CYCLES = 3, some port inputs and one MISO level. -/
def start (port : List EdgeInput) : State := { State.resetWith ⟨2⟩ with port := port, misoIn := [true] }

/-- `start` once command `i` is accepted and has run `j` micro-steps with MISO at 1, at cycle `tick` of the next. -/
def mid (i : Instr) (j tick : Nat) (port : List EdgeInput) : State :=
  let s := after (exec i (start port))
  { s with block := { (runMicro (fun _ => true) j s.block).getD Block.reset with tick := tick } }

/-- `start` once RELEASE has completed. -/
def freed (port : List EdgeInput) : State := mid .release 1 0 port

/-- The write of a word to CMD. -/
def write (w : Word) : EdgeInput := .access (.write .cmd w)

/-! ### WellFormed: the one check refuses an ill-formed term -/

theorem test_wf_refuses_count_9 : (Instr.readRegs 0 9).wf = false := by decide
theorem test_wf_takes_count_8 : (Instr.readRegs 63 8).wf = true := by decide

/-! ### Decode: words written out bit by bit from R70 and R72 -/

-- OP 0001, CNT 0000, RSV 0000000000, ADDR 000000, DATA 10100101
theorem test_decode_send_byte : decode 0b00010000000000000000000010100101#32 = .cmd (.sendByte 0xA5) := by decide
-- OP 0010, every other bit 0
theorem test_decode_recv_byte : decode 0b00100000000000000000000000000000#32 = .cmd .recvByte := by decide
-- OP 0011, CNT 0000, RSV 0000000000, ADDR 000101, DATA 00111100
theorem test_decode_write_reg : decode 0b00110000000000000000010100111100#32 = .cmd (.writeReg 5 0x3C) := by decide
-- OP 0100, CNT 0010, RSV 0000000000, ADDR 000001, DATA 00000000
theorem test_decode_read_regs : decode 0b01000010000000000000000100000000#32 = .cmd (.readRegs 1 2) := by decide
-- OP 0101, every other bit 0
theorem test_decode_release : decode 0b01010000000000000000000000000000#32 = .cmd .release := by decide
theorem test_decode_table_word : decodeTableWord 32 0x3000053C = some (.writeReg 5 0x3C) := by decide
-- L2.1: the reserved words and the words with a nonzero must-be-zero field
theorem test_decode_illegal :
    [0x00000000#32, 0x60000000#32, 0xF0000000#32, 0xFFFFFFFF#32, 0x10000100#32, 0x11000000#32, 0x20000001#32,
      0x20004000#32, 0x30004000#32, 0x31000000#32, 0x40800000#32, 0x48000001#32, 0x49000001#32, 0x50000001#32,
      0x58000000#32].all (fun w => decode w == .illegal) = true := by decide
-- L2.1: the two COUNT rows
theorem test_decode_count : decode 0x49000000#32 = .badCount ∧ decode 0x4F003F00#32 = .badCount := by decide
-- L2.1: the encode vectors
theorem test_encode_vectors :
    encode (.writeReg 5 0x3C) = 0x3000053C#32 ∧ encode (.readRegs 1 2) = 0x42000100#32 ∧
    encode (.sendByte 0xFF) = 0x100000FF#32 ∧ encode .recvByte = 0x20000000#32 ∧
    encode .release = 0x50000000#32 := by decide
theorem test_assemble_refuses_address_64 : assemble (.writeReg 64 0) = none := by decide
theorem test_signals_of_a_cmd_write :
    EdgeInput.ofSignals false true true 0#2 7#32 = write 7#32 := by decide

/-! ### Acceptance: STATUS after the write (L2.1) and the first step of a presented word -/

theorem test_accept_send_byte : statusWord (after (step (start [write 0x100000A5#32]))).block = 0x00000001#32 := by
  decide
theorem test_accept_recv_byte : statusWord (after (step (start [write 0x20000000#32]))).block = 0x00000001#32 := by
  decide
theorem test_accept_write_reg : (after (step (State.reset.withFetchWord 32 0x30003FFF))).block.laddr = 63#6 := by decide
theorem test_accept_read_regs : (after (step (State.reset.withFetchWord 32 0x48000000))).block.lcnt = 8#4 := by decide
theorem test_accept_release : (after (step (State.reset.withFetchWord 32 0x50000000))).block.busy = true := by decide
theorem test_refuse_illegal : statusWord (after (step (start [write 0#32]))).block = 0x00000014#32 := by decide
theorem test_refuse_count : statusWord (after (step (start [write 0x49000000#32]))).block = 0x00000024#32 := by decide
-- L2.7: busy with SEND_BYTE, UPC = 1
theorem test_refuse_busy :
    statusWord (after (step (mid (.sendByte 0xA5) 1 0 [write 0x20000000#32]))).block = 0x00000035#32 := by decide
-- L2.7: the write at the completing micro-step
theorem test_refuse_busy_at_completion :
    statusWord (after (step (mid (.sendByte 0xA5) 23 2 [write 0x20000000#32]))).block = 0x00000036#32 := by decide
-- L2.6: released, RELEASED before ILLEGAL
theorem test_refuse_released :
    statusWord (after (step (freed [write 0xFFFFFFFF#32]))).block = 0x0000004C#32 := by decide

/-! ### Micro-operations (L2.2) -/

theorem test_sample_shifts : (perform (.sample 0 false) true { Block.reset with shreg := 0x5A }).shreg = 0xB5#8 := by
  decide
theorem test_sample_drops_bit_7 :
    (perform (.sample 0 false) false { Block.reset with shreg := 0xFF }).shreg = 0xFE#8 := by decide
theorem test_last_sample_commits :
    let b := perform (.sample 3 true) true { Block.reset with shreg := 0x30, rxcnt := 3 }
    b.rxbuf[3] = 0x61#8 ∧ b.rxcnt = 4#4 := by decide
theorem test_rel_undrives_the_pins :
    pins (perform .rel true { Block.reset with mosiQ := true }) = ⟨.z, .z, .z⟩ := by decide

/-! ### End states (L2.3, L2.5, L2.6) -/

-- V-SEND-A5: 1, 0, 1, 0, 0, 1, 0, 1 at the falling edges
theorem test_send_a5_on_the_wire :
    fallingBits (pinTrace (fun _ => true) 24 (mid (.sendByte 0xA5) 0 0 []).block) =
      [.high, .low, .high, .low, .low, .high, .low, .high] := by decide
-- WRITE_REG 63, #0xFF: 50 micro-steps, CS_N = 1, SCLK = 0, MOSI = 1
theorem test_write_reg_end :
    pins (mid (.writeReg 63 0xFF) 50 0 []).block = ⟨.high, .low, .high⟩ := by decide
-- RECV_BYTE with MISO at 1: RXBUF[0] = 0xFF, STATUS 0x102
theorem test_recv_byte_end :
    readReg (mid .recvByte 24 0 []).block .rxdata0 = 0x000000FF#32 ∧
    statusWord (mid .recvByte 24 0 []).block = 0x00000102#32 := by decide
-- READ_REGS 5, 0: 26 micro-steps, STATUS 2, MOSI = A[0] = 1
theorem test_read_regs_count_0 :
    statusWord (mid (.readRegs 5 0) 26 0 []).block = 0x00000002#32 ∧ (mid (.readRegs 5 0) 26 0 []).block.mosiQ = true := by
  decide
-- RELEASE from reset: STATUS 0x0A, pins undriven
theorem test_release_end : statusWord (freed []).block = 0x0000000A#32 ∧ pins (freed []).block = ⟨.z, .z, .z⟩ := by
  decide
-- L2.8: a reset in the middle of a WRITE_REG
theorem test_reset_in_a_write :
    (after (step (mid (.writeReg 0 0xB2) 11 0 [.rst (some (.write .cmd 0x100000A5#32))]))).block = Block.reset := by
  decide
-- L2.9: STEP_CYCLES = 3: no micro-step at the first two edges after the acceptance
theorem test_first_micro_step_at_the_third_edge :
    (after (step (mid (.sendByte 0xA5) 0 1 []))).block.sclkQ = false ∧
    (after (step (mid (.sendByte 0xA5) 0 2 []))).block.sclkQ = true := by decide
-- L1.4 and L1.9
theorem test_fault_priority : Attached.faultOf 0xC0#8 = some .openCable ∧ Attached.faultOf 0x38#8 = none := by decide
theorem test_adc_code :
    Attached.adcCode { Block.reset with rxbuf := #v[0xB2, 0x40, 0x00, 0xFF, 0xFF, 0, 0, 0] } = 8192#15 := by decide

/-! ### Witnesses: states that meet the hypotheses of the statements -/

/-- An echo slave whose registers all hold 0x00. -/
def blankSlave : Attached.EchoSlave := .holding (Vector.replicate 64 0)

/-- A write of 0xB2 to register 0 reaches the echo slave's register 0 (L1.6). -/
theorem test_echo_slave_hears_a_write :
    blankSlave.hear .completed ((wireBits 0x80#8 ++ wireBits 0xB2#8).map drivenLevel) =
      .holding ((Vector.replicate 64 0).set 0 0xB2#8) := by decide

/-- A reset at the edge of the last micro-step of a WRITE_REG cuts it, though all 16 bits have been read (R189). -/
theorem test_reset_at_the_last_micro_step_cuts :
    Attached.selectEnd (mid (.writeReg 0 0xB2) 49 2 [.rst none])
      (after (step (mid (.writeReg 0 0xB2) 49 2 [.rst none]))) = some .cut := by decide

/-- RELEASE leaves the lines undriven, and nothing is known of the echo slave (U5). -/
theorem test_release_makes_the_echo_slave_unknown :
    let s := mid .release 0 2 []
    (Attached.EchoHarness.edge ⟨blankSlave, []⟩ s (after (step s))).slave =
      .unknown (Vector.replicate 64 0) [none] := by decide

theorem witness_start_inv (port : List EdgeInput) : (start port).Inv := by
  show Block.Inv ⟨2⟩ Block.reset
  constructor <;> decide

theorem witness_start_ready (port : List EdgeInput) : (start port).Ready := ⟨rfl, rfl⟩

theorem witness_DecodeOfEncodeIsTheCommand : (Instr.readRegs 63 8).WellFormed := by decide

theorem witness_EncodeOfDecodeIsTheWord : decode 0x48003F00#32 = .cmd (.readRegs 63 8) := by decide

theorem witness_CommandWordsAreTheTablesRows :
    ∃ r ∈ rows, 0x48003F00#32 &&& r.mask = r.matchBits ∧ r.mnemonic = "READ_REGS" := by decide

theorem witness_AssemblerRefusesOperandsOutOfRange :
    assemble (.sendByte 255) = some (.sendByte 0xFF) ∧ assemble (.sendByte 256) = none ∧
    assemble (.writeReg 63 255) = some (.writeReg 63 0xFF) ∧ assemble (.writeReg 63 256) = none ∧
    assemble (.readRegs 63 8) = some (.readRegs 63 8) ∧ assemble (.readRegs 64 8) = none ∧
    assemble (.readRegs 63 9) = none := by decide

theorem witness_ResetLeavesTheResetValues :
    ∃ (b : Block) (s t : State) (p : Option Access), s.edgeInput = .rst p ∧ step s = .next t ∧ t.block = b :=
  ⟨_, mid (.writeReg 0 0xB2) 11 0 [.rst none], _, none, rfl, rfl, rfl⟩

theorem witness_ResetEdgeWinsOverEverything :
    (mid (.writeReg 0 0xB2) 11 2 [.rst (some (.read .status))]).port = .rst (some (.read .status)) :: [] := rfl

theorem witness_HostIndicesNameTheFourRegisters : (3#2) ≠ 0 := by decide

theorem witness_ReadReturnsTheStateBeforeTheEdgeAndChangesNothing :
    ∃ (s u : State), s.port = .access (.read .rxdata1) :: [] ∧ step { s with port := .idle :: [] } = .next u :=
  ⟨mid .recvByte 24 0 [.access (.read .rxdata1)], _, rfl, rfl⟩

theorem witness_WritesToReadOnlyRegistersAreIgnored :
    HostReg.status ≠ .cmd ∧ (start [.access (.write .status 1#32)]).port = .access (.write .status 1#32) :: [] :=
  ⟨by decide, rfl⟩

theorem witness_PollRepeatsUntilBusyIsClear :
    (∃ t, step (start [.poll]) = .next t ∧ t.port = []) ∧
    (∃ t, step (mid .recvByte 0 0 [.poll]) = .next t ∧ t.port = [.poll]) := ⟨⟨_, rfl, rfl⟩, ⟨_, rfl, rfl⟩⟩

theorem witness_PinsShowTheLatchesUntilReleased :
    (start []).block.released = false ∧ (freed []).block.released = true ∧
    (∃ s t : State, s.NoResetNext ∧ s.block.busy = true ∧ s.block.tick + 1 ≠ s.params.stepCycles ∧ step s = .next t) :=
  ⟨by decide, by decide, mid (.sendByte 0) 0 1 [], _, (by intro a h; cases h), by decide, by decide, rfl⟩

theorem witness_StepExecutesTheDecodedCommand :
    (start [write 0x50000000#32]).port = .access (.write .cmd 0x50000000#32) :: [] ∧
    decode 0x50000000#32 = .cmd .release := ⟨rfl, by decide⟩

theorem witness_SendWriteReleaseAcceptanceEffects :
    ∃ s : State, s.Ready ∧ ((∃ d, Instr.release = .sendByte d) ∨ (∃ a d, Instr.release = .writeReg a d) ∨
      Instr.release = .release) := ⟨start [], witness_start_ready [], .inr (.inr rfl)⟩

theorem witness_ReceivingCommandAcceptanceEffects :
    ∃ s : State, s.Ready ∧ (Instr.readRegs 63 8).WellFormed ∧
      (Instr.readRegs 63 8 = .recvByte ∨ ∃ a n, Instr.readRegs 63 8 = .readRegs a n) :=
  ⟨start [], witness_start_ready [], by decide, .inr ⟨_, _, rfl⟩⟩

theorem witness_EveryCommandIsRefusedWhileBusy : (mid (.sendByte 0) 3 0 []).block.busy = true := by decide

theorem witness_EveryCommandIsRefusedOnceReleased :
    (freed []).block.busy = false ∧ (freed []).block.released = true := by decide

theorem witness_CommandWriteFollowsTheAcceptProcedure :
    (∃ s : State, s.port = [write 0#32] ∧ s.block.busy = true ∧ s.block.tick + 1 ≠ s.params.stepCycles) ∧
    (∃ s : State, s.port = [write 0#32] ∧ s.block.busy = false ∧ s.block.released = true) ∧
    (∃ s : State, s.port = [write 0x60000000#32] ∧ s.Ready ∧ decode 0x60000000#32 = .illegal) ∧
    (∃ s : State, s.port = [write 0x49000000#32] ∧ s.Ready ∧ decode 0x49000000#32 = .badCount) ∧
    (∃ s : State, s.port = [write 0x48000000#32] ∧ s.Ready ∧ decode 0x48000000#32 = .cmd (.readRegs 0 8)) :=
  ⟨⟨mid (.sendByte 0) 3 0 [write 0#32], rfl, by decide, by decide⟩,
   ⟨freed [write 0#32], rfl, by decide, by decide⟩,
   ⟨start [write 0x60000000#32], rfl, witness_start_ready _, by decide⟩,
   ⟨start [write 0x49000000#32], rfl, witness_start_ready _, by decide⟩,
   ⟨start [write 0x48000000#32], rfl, witness_start_ready _, by decide⟩⟩

theorem witness_RefusalsReportTheFirstReasonAndChangeNothingElse :
    ∃ (s u : State), s.port = write 0xFFFFFFFF#32 :: [] ∧ s.block.busy = true ∧
      step { s with port := .idle :: [] } = .next u :=
  ⟨mid (.sendByte 0) 23 2 [write 0xFFFFFFFF#32], _, rfl, by decide, rfl⟩

theorem witness_RefusalsReportTheFirstReason_count :
    ∃ (s u : State), s.port = write 0x49000000#32 :: [] ∧ s.block.busy = false ∧ s.block.released = false ∧
      decode 0x49000000#32 = .badCount ∧ step { s with port := .idle :: [] } = .next u :=
  ⟨start [write 0x49000000#32], _, rfl, by decide, by decide, by decide, rfl⟩

theorem witness_RefusalsReportTheFirstReason_released :
    ∃ (s u : State), s.port = write 0xFFFFFFFF#32 :: [] ∧ s.block.busy = false ∧ s.block.released = true ∧
      step { s with port := .idle :: [] } = .next u :=
  ⟨freed [write 0xFFFFFFFF#32], _, rfl, by decide, by decide, rfl⟩

theorem witness_RefusalsReportTheFirstReason_illegal :
    ∃ (s u : State), s.port = write 0x49000001#32 :: [] ∧ s.block.busy = false ∧ s.block.released = false ∧
      decode 0x49000001#32 = .illegal ∧ step { s with port := .idle :: [] } = .next u :=
  ⟨start [write 0x49000001#32], _, rfl, by decide, by decide, by decide, rfl⟩

theorem witness_SimultaneousEventsAtOneEdge :
    (∃ s : State, s.edgeInput = .rst (some (.write .cmd 0x20000000#32)) ∧ s.block.busy = true) ∧
    (∃ s : State, s.edgeInput = .access (.write .cmd 0x20000000#32) ∧ s.block.busy = true ∧
      s.block.tick + 1 = s.params.stepCycles ∧ s.block.upc.toNat + 1 = (script s.block.latch).length) ∧
    (∃ s t : State, s.edgeInput = .access (.read .status) ∧ step s = .next t) :=
  ⟨⟨mid (.sendByte 0) 3 2 [.rst (some (.write .cmd 0x20000000#32))], by decide, by decide⟩,
   ⟨mid (.sendByte 0) 23 2 [write 0x20000000#32], by decide, by decide, by decide, by decide⟩,
   ⟨mid (.sendByte 0) 23 2 [.access (.read .status)], _, by decide, rfl⟩⟩

theorem witness_MicroStepPerformsTheDueOperation :
    (∃ b : Block, (script b.latch)[b.upc.toNat]? = some (.clk true) ∧ b.upc.toNat + 1 < (script b.latch).length) ∧
    (∃ b : Block, (script b.latch)[b.upc.toNat]? = some (.cs true) ∧ b.upc.toNat + 1 = (script b.latch).length) :=
  ⟨⟨(mid (.sendByte 0) 0 0 []).block, by decide, by decide⟩,
   ⟨(mid (.writeReg 0 0) 49 0 []).block, by decide, by decide⟩⟩

theorem witness_BusyEdgeTicksOrPerformsAMicroStep :
    (∃ s : State, s.Inv ∧ s.block.busy = false) ∧
    (∃ s : State, s.Inv ∧ s.block.busy = true ∧ s.NoResetNext ∧ s.block.tick + 1 < s.params.stepCycles) ∧
    (∃ s : State, s.Inv ∧ s.block.busy = true ∧ s.NoResetNext ∧ s.block.tick + 1 = s.params.stepCycles ∧
      s.misoIn = true :: []) :=
  ⟨⟨start [], witness_start_inv [], rfl⟩,
   ⟨mid .recvByte 22 1 [], by constructor <;> decide, by decide, (by intro a h; cases h), by decide⟩,
   ⟨mid .recvByte 22 2 [], by constructor <;> decide, by decide, (by intro a h; cases h), by decide, rfl⟩⟩

theorem witness_IdleEdgeLeavesTheBlock :
    ∃ s : State, s.block.busy = false ∧ s.NoResetNext ∧ ∀ w, s.edgeInput ≠ .access (.write .cmd w) :=
  ⟨start [.access (.read .status)], rfl, (by intro a h; cases h), (by intro w h; cases h)⟩

theorem witness_ReadRegsScriptTakesTheSlotsInOrder :
    ∃ l : Latch, l.op = 0x4#4 ∧ l.cnt.toNat ≤ 8 ∧ l.cnt = 8 := ⟨⟨4, 8, 0, 0⟩, by decide⟩

theorem witness_ScriptsHaveTheirLengths :
    ∃ s t : State, s.Ready ∧ (Instr.readRegs 0 8).WellFormed ∧ exec (.readRegs 0 8) s = .next t :=
  ⟨start [], _, witness_start_ready [], by decide, rfl⟩

theorem witness_EveryClockOperationIsAnEdge :
    ∃ s : State, s.Inv ∧ s.block.busy = true ∧ s.block.dueOp = some (.clk false) :=
  ⟨mid (.sendByte 0) 2 0 [], by constructor <;> decide, by decide, by decide⟩

/-- The hypotheses of SendByteEndState, RecvByteEndState, WriteRegEndState, ReleaseEndState and, at both ends of the
count, ReadRegsEndState. -/
theorem witness_EndStates : ∃ s : State, s.Ready ∧ (0#4).toNat ≤ 8 ∧ (8#4).toNat ≤ 8 :=
  ⟨start [], witness_start_ready [], by decide, by decide⟩

theorem witness_ReceivedBytesAreCommittedAtTheirEighthSample :
    (∃ s t : State, s.Ready ∧ (8#4).toNat ≤ 8 ∧ exec (.readRegs 0 8) s = .next t ∧ 216 ≤ 26 + 24 * (8#4).toNat) ∧
    (∃ s t : State, s.Ready ∧ exec .recvByte s = .next t ∧ 23 ≤ 24) :=
  ⟨⟨start [], _, witness_start_ready [], by decide, rfl, by decide⟩,
   ⟨start [], _, witness_start_ready [], rfl, by decide⟩⟩

theorem witness_SelectFramesTheRegisterTransactions :
    (∃ s t : State, s.Inv ∧ s.Ready ∧ (Instr.writeReg 0 0).WellFormed ∧ exec (.writeReg 0 0) s = .next t ∧
      0 < 49 ∧ 49 ≤ scriptLength (.writeReg 0 0)) ∧
    (∃ s t : State, s.Inv ∧ s.Ready ∧ (Instr.sendByte 0).WellFormed ∧ exec (.sendByte 0) s = .next t ∧
      0 < 1 ∧ 1 ≤ scriptLength (.sendByte 0)) ∧
    ∃ s t : State, s.Inv ∧ s.Ready ∧ (Instr.readRegs 0 8).WellFormed ∧ exec (.readRegs 0 8) s = .next t ∧
      0 < 218 ∧ 218 ≤ scriptLength (.readRegs 0 8) :=
  ⟨⟨start [], _, witness_start_inv [], witness_start_ready [], by decide, rfl, by decide, by decide⟩,
   ⟨start [], _, witness_start_inv [], witness_start_ready [], by decide, rfl, by decide, by decide⟩,
   start [], _, witness_start_inv [], witness_start_ready [], by decide, rfl, by decide, by decide⟩

theorem witness_SendByteOnTheWire : ∃ s t : State, s.Inv ∧ s.Ready ∧ exec (.sendByte 0xA5) s = .next t :=
  ⟨start [], _, witness_start_inv [], witness_start_ready [], rfl⟩

theorem witness_RegisterCommandsOnTheWire :
    (∃ s t : State, s.Inv ∧ s.Ready ∧ exec (.writeReg 63 0xFF) s = .next t) ∧
    (∃ s t : State, s.Inv ∧ s.Ready ∧ (0#4).toNat ≤ 8 ∧ exec (.readRegs 63 0) s = .next t) :=
  ⟨⟨start [], _, witness_start_inv [], witness_start_ready [], rfl⟩,
   ⟨start [], _, witness_start_inv [], witness_start_ready [], by decide, rfl⟩⟩

theorem witness_LoopbackReceivesTheLastBitAndReplayTheByte :
    ∃ (s t t' : State) (b c : Block), s.Ready ∧ exec (.sendByte 0xA5) s = .next t ∧ runWired 24 t.block = some b ∧
      exec .recvByte { t with block := b } = .next t' ∧ runWired 24 t'.block = some c :=
  ⟨start [], _, _, _, _, witness_start_ready [], rfl, rfl, rfl, rfl⟩

/-- A course of MISO that presents the bits of 0xA5 at the samples. -/
def replayA5 (j : Nat) : Bool := (0xA5#8).getLsbD (7 - (j - 1) / 3)

theorem witness_replay_course : ∀ j < 8, replayA5 (3 * j + 1) = (0xA5#8).getLsbD (7 - j) := by decide

/-- A course of MISO at 1 at the samples of the eight bits of 0xFF. -/
theorem witness_WriteThenReadbackWithTheEchoSlave :
    ∃ (s t t' : State) (b : Block) (e' : Attached.EchoSlave), s.Inv ∧ s.Ready ∧
      exec (.writeReg 0 0xFF) s = .next t ∧ runMicro (fun _ => true) 50 t.block = some b ∧
      e' = blankSlave.hear .completed (selectedBits (pinTrace (fun _ => true) 50 t.block)) ∧
      exec (.readRegs 0 1) { t with block := b } = .next t' ∧
      (∀ j < 8, true = (e'.levels 0 1).getD j false) :=
  ⟨start [], _, _, _, _, witness_start_inv [], witness_start_ready [], rfl, rfl, rfl, rfl, by decide⟩

theorem witness_EveryStepKeepsTheInvariant :
    ∃ s t : State, s.Inv ∧ step s = .next t ∧ s.block.busy = true :=
  ⟨mid .recvByte 22 2 [], _, by constructor <;> decide, rfl, by decide⟩

theorem witness_NoStepFails : (mid (.readRegs 5 2) 73 2 []).Inv := by constructor <;> decide

theorem witness_MicroStepIndexAndTimerStayInRange :
    ∃ s : State, s.Inv ∧ s.block.upc.toNat = 49 ∧ s.block.tick = 2 :=
  ⟨mid (.writeReg 1 2) 49 2 [], by constructor <;> decide, by decide, by decide⟩

theorem witness_FlagsChangeOnlyByTheirCauses_busy_rises :
    ∃ s t : State, s.Inv ∧ step s = .next t ∧ s.NoResetNext ∧ s.block.busy = false ∧ t.block.busy = true :=
  ⟨start [write 0x20000000#32], _, witness_start_inv _, rfl, (by intro a h; cases h), rfl, by decide⟩

theorem witness_FlagsChangeOnlyByTheirCauses_busy_falls :
    ∃ s t : State, s.Inv ∧ step s = .next t ∧ s.NoResetNext ∧ s.block.busy = true ∧ t.block.busy = false ∧
      s.block.done = false ∧ t.block.done = true ∧ t.block.released ≠ s.block.released :=
  ⟨mid .release 0 2 [], _, by constructor <;> decide, rfl, (by intro a h; cases h), by decide, by decide, by decide,
    by decide, by decide⟩

theorem witness_FlagsChangeOnlyByTheirCauses_done_falls :
    ∃ s t : State, s.Inv ∧ step s = .next t ∧ s.NoResetNext ∧ s.block.done = true ∧ t.block.done = false ∧
      t.block.err ≠ s.block.err :=
  ⟨mid .recvByte 24 0 [write 0#32], _, by constructor <;> decide, rfl, (by intro a h; cases h), by decide, by decide,
    by decide⟩

theorem witness_ReleaseIsFinalUntilReset :
    (∃ s : State, s.Inv ∧ s.block.released = true ∧ s.NoResetNext ∧ s.edgeInput = .access (.write .cmd 0x50000000#32)) ∧
    (∃ s : State, s.Inv ∧ s.block.released = true ∧ s.NoResetNext ∧
      ∀ w, s.edgeInput ≠ .access (.write .cmd w)) :=
  ⟨⟨freed [write 0x50000000#32], by constructor <;> decide, by decide, (by intro a h; cases h), by decide⟩,
   ⟨freed [], by constructor <;> decide, by decide, (by intro a h; cases h), (by intro w h; cases h)⟩⟩

theorem witness_LatchesAndBufferChangeOnlyByTheirCauses :
    (∃ s t : State, s.Inv ∧ step s = .next t ∧ s.NoResetNext ∧ t.block.latch ≠ s.block.latch) ∧
    (∃ s t : State, s.Inv ∧ step s = .next t ∧ s.NoResetNext ∧ t.block.rxbuf ≠ s.block.rxbuf ∧
      t.block.shreg = s.block.shreg) ∧
    (∃ s t : State, s.Inv ∧ step s = .next t ∧ s.NoResetNext ∧ t.block.shreg ≠ s.block.shreg) :=
  ⟨⟨start [write 0x20000000#32], _, witness_start_inv _, rfl, (by intro a h; cases h), by decide⟩,
   ⟨mid .recvByte 24 0 [write 0x20000000#32], _, by constructor <;> decide, rfl, (by intro a h; cases h), by decide,
     by decide⟩,
   ⟨mid .recvByte 1 2 [], _, by constructor <;> decide, rfl, (by intro a h; cases h), by decide⟩⟩

theorem witness_CommandCompletesAfterItsScriptsCycles :
    ∃ (s : State) (i : Instr), s.Inv ∧ s.Ready ∧ i.WellFormed ∧
      s.port = .access (.write .cmd (encode i)) :: [.poll, .access (.write .cmd 0#32)] ∧
      noReset [.poll, .access (.write .cmd 0#32)] ∧ 654 ≤ scriptLength i * s.params.stepCycles :=
  ⟨start [.access (.write .cmd (encode (.readRegs 0 8))), .poll, .access (.write .cmd 0#32)], .readRegs 0 8,
    witness_start_inv _, witness_start_ready _, by decide, rfl, by intro a; simp, by decide⟩

theorem witness_RunOfACommandIsItsMicroSteps :
    ∃ s : State, s.Inv ∧ s.Ready ∧ Instr.release.WellFormed ∧ s.port = [.access (.write .cmd (encode .release))] :=
  ⟨start [.access (.write .cmd (encode .release))], witness_start_inv _, witness_start_ready _, by decide, rfl⟩

/-- The clause on the slave's levels: the first SAMPLE of a RECV_BYTE, micro-operation 1, and its last, 22. -/
theorem witness_RunOfACommandIsItsMicroSteps_levels :
    recvByteScript[1]? = some (.sample 0 false) ∧ samplesIn (recvByteScript.take 1) = 0 ∧
    recvByteScript[22]? = some (.sample 0 true) ∧ samplesIn (recvByteScript.take 22) = 7 ∧
    (start []).misoIn[0]? = some true := by decide

theorem witness_ReadRegsDeliversTheSlavesBytes :
    ∃ (s : State) (levels later : List Bool), s.Inv ∧ s.Ready ∧ (8#4).toNat ≤ 8 ∧
      s.port = [.access (.write .cmd (encode (.readRegs 63 8)))] ∧ s.misoIn = levels ++ later ∧
      levels.length = 8 * (8#4).toNat :=
  ⟨{ start [.access (.write .cmd (encode (.readRegs 63 8)))] with misoIn := List.replicate 64 true },
    List.replicate 64 true, [], by constructor <;> decide, ⟨rfl, rfl⟩, by decide, rfl, by simp, by simp⟩

theorem witness_RecvByteDeliversTheSlavesByte :
    ∃ (s : State) (levels later : List Bool), s.Inv ∧ s.Ready ∧
      s.port = [.access (.write .cmd (encode .recvByte))] ∧ s.misoIn = levels ++ later ∧ levels.length = 8 :=
  ⟨{ start [.access (.write .cmd (encode .recvByte))] with misoIn := List.replicate 8 true ++ [false] },
    List.replicate 8 true, [false], by constructor <;> decide, ⟨rfl, rfl⟩, rfl, rfl, by decide⟩

/-- A reset in the fourth bit-clock of the address byte of a WRITE_REG, at micro-step 11 (program P5). -/
theorem witness_ResetCutsTheEchoSlavesTransaction_cut :
    ∃ s : State, s.Inv ∧ s.edgeInput = .rst none ∧ s.block.csNQ = false :=
  ⟨mid (.writeReg 0 0xB2) 11 2 [.rst none], by constructor <;> decide, rfl, by decide⟩

theorem witness_ResetCutsTheEchoSlavesTransaction_completed :
    ∃ s t : State, s.Inv ∧ step s = .next t ∧ Attached.selectEnd s t = some .completed :=
  ⟨mid (.readRegs 5 2) 73 2 [], _, by constructor <;> decide, rfl, by decide⟩

/-- Clause on an edge with a reset: the edge that the clause's hypothesis names. -/
theorem witness_ResetCutsTheEchoSlavesTransaction_only :
    ∃ s t : State, Attached.selectEnd s t = some .cut :=
  ⟨mid (.readRegs 5 2) 26 2 [.rst none], after (step (mid (.readRegs 5 2) 26 2 [.rst none])), by decide⟩

theorem witness_ResetCutsTheEchoSlavesTransaction_ends :
    ∃ s t : State, s.Inv ∧ step s = .next t ∧ s.NoResetNext ∧ (pins s.block).csN = .low ∧ (pins t.block).csN ≠ .low :=
  ⟨mid (.writeReg 1 2) 49 2 [], _, by constructor <;> decide, rfl, (by intro a h; cases h), by decide, by decide⟩

theorem witness_ResetCutsTheEchoSlavesTransaction_commands :
    ∃ (s : State) (rest : List EdgeInput) (h : Attached.EchoHarness), s.Inv ∧ s.Ready ∧
      (Instr.writeReg 63 0xB2).WellFormed ∧ s.port = .access (.write .cmd (encode (.writeReg 63 0xB2))) :: rest ∧
      noReset rest ∧ h = Attached.EchoHarness.follow ⟨blankSlave, []⟩
        (1 + scriptLength (.writeReg 63 0xB2) * s.params.stepCycles) s :=
  ⟨start [.access (.write .cmd (encode (.writeReg 63 0xB2))), .poll], [.poll], _, witness_start_inv _,
    witness_start_ready _, by decide, rfl, by intro a; simp, rfl⟩

end Sys2Proof.Tests
end

section
/-! PROOFS. The block's state (spec/10_state.md R24, R39): the reset values, the host's part of an edge without a reset,
and the output latches. -/

namespace Sys2Proof.Machine

/-! ### Reset values (R39) -/

/-- A block right after reset, by an edge with rst = 1 or in the model's own reset state, is the record of R39. -/
theorem block_eq_reset {b : Block}
    (h : (∃ (s t : State) (presented : Option Access), s.edgeInput = .rst presented ∧ step s = .next t ∧ t.block = b) ∨
      ∃ p : Config.Params, b = (State.resetWith p).block) : b = Block.reset := by
  rcases h with ⟨s, t, presented, hrst, hstep, hb⟩ | ⟨p, hb⟩
  · rw [step_of_rst hrst] at hstep
    cases hstep
    rw [← hb, State.resetEdge_block]
  · exact hb

theorem Block.reset_rxbuf_getElem (k : Fin 8) : Block.reset.rxbuf[k] = 0 := by
  simp [Block.reset]

/-- Settles O8: whatever leaves the reset state leaves `Block.reset`, whose fields are the table of R39. -/
theorem resetLeavesTheResetValues : Obligations.ResetLeavesTheResetValues := by
  intro b h
  obtain rfl := block_eq_reset h
  exact ⟨rfl, rfl, rfl, rfl, rfl, rfl, rfl, rfl, Block.reset_rxbuf_getElem, rfl, rfl, rfl, rfl, rfl, rfl, rfl, rfl⟩

/-! ### The output latches (R24) -/

/-- The three output latches of a block: CS_N_Q, SCLK_Q, MOSI_Q. -/
def Block.outputLatches (b : Block) : Bool × Bool × Bool := (b.csNQ, b.sclkQ, b.mosiQ)

theorem Block.outputLatches_eq_iff {b b' : Block} :
    b.outputLatches = b'.outputLatches ↔ b.csNQ = b'.csNQ ∧ b.sclkQ = b'.sclkQ ∧ b.mosiQ = b'.mosiQ := by
  simp [Block.outputLatches]

@[simp] theorem Block.refuse_outputLatches (b : Block) (r : Reason) : (b.refuse r).outputLatches = b.outputLatches := rfl
@[simp] theorem Block.clearDone_outputLatches (b : Block) : b.clearDone.outputLatches = b.outputLatches := rfl
@[simp] theorem Block.accept_outputLatches (b : Block) (l : Latch) : (b.accept l).outputLatches = b.outputLatches := rfl
@[simp] theorem Block.acceptReceive_outputLatches (b : Block) (l : Latch) :
    (b.acceptReceive l).outputLatches = b.outputLatches := rfl

/-- A command write keeps the output latches when what completes it does. -/
theorem Block.commandWrite_outputLatches (b : Block) {k : Block → Block}
    (hk : ∀ c, (k c).outputLatches = c.outputLatches) : (b.commandWrite k).outputLatches = b.outputLatches := by
  obtain ⟨-, h⟩ | ⟨-, -, h⟩ | ⟨-, -, h⟩ := b.commandWrite_cases k <;> simp [h, hk]

/-- No pin is driven once the lines are released. -/
theorem pins_of_released {b : Block} (h : b.released = true) : pins b = ⟨.z, .z, .z⟩ := by
  simp [pins, pinLevel, h]

/-! ### The host's part of an edge without a reset (R151, R152, R156) -/

/-- What a write to CMD of any word leaves: a block with the same output latches and, when a command was running, only
the refusal BUSY. -/
theorem writeCmd_block (w : Word) (s : State) :
    ∃ b, writeCmd w s = .next { s with block := b } ∧ b.outputLatches = s.block.outputLatches ∧
      (s.block.busy = true → b = s.block.refuse .busy) := by
  obtain ⟨k, hw, hk⟩ := writeCmd_is_commandWrite w s
  refine ⟨s.block.commandWrite k, hw, s.block.commandWrite_outputLatches fun c => ?_, Block.commandWrite_of_busy k⟩
  obtain ⟨i, l, -, rfl | rfl⟩ | ⟨r, rfl⟩ := hk <;> simp

/-- An edge without a reset is the host's part, which keeps the output latches and changes a busy block by the refusal
BUSY at most, and then the sequencer's part. -/
theorem step_of_noReset {s : State} (hr : s.NoResetNext) :
    ∃ b, step s = sequenceAfter s.block.busy (.next { s.passEdge with block := b }) ∧
      b.outputLatches = s.block.outputLatches ∧
      (s.block.busy = true → b = s.block ∨ b = s.block.refuse .busy) := by
  by_cases hw : ∃ w, s.edgeInput = .access (.write .cmd w)
  · obtain ⟨w, hw⟩ := hw
    obtain ⟨b, hb, hl, hbusy⟩ := writeCmd_block w s.passEdge
    exact ⟨b, by rw [step_of_write hw, hb], hl, fun h => .inr (hbusy h)⟩
  · exact ⟨s.block, step_of_quiet hr (not_exists.mp hw), rfl, fun _ => .inl rfl⟩

theorem sequenceAfter_of_not_due {busy : Bool} {t : State} (h : busy = true → t.block.tick ≠ t.params.lastTick) :
    sequenceAfter busy (.next t) = .next (if busy then t.tickUp else t) := by
  cases busy with
  | false => rfl
  | true => exact State.sequence_of_not_last (h rfl)

/-- An edge with neither a reset nor a micro-step keeps the output latches: a micro-step is due when BUSY = 1 and TICK
is STEP_CYCLES - 1 (R35). -/
theorem step_keeps_outputLatches {s t : State} (hr : s.NoResetNext)
    (hq : s.block.busy = false ∨ s.block.tick + 1 ≠ s.params.stepCycles) (hs : step s = .next t) :
    t.block.outputLatches = s.block.outputLatches := by
  obtain ⟨b, hstep, hl, hhost⟩ := step_of_noReset hr
  have hnotDue : s.block.busy = true → b.tick ≠ s.params.lastTick := by
    intro hbusy
    have htick : b.tick = s.block.tick := by
      obtain rfl | rfl := hhost hbusy <;> simp
    simpa [hbusy, htick, Config.Params.stepCycles] using hq
  rw [hstep, sequenceAfter_of_not_due hnotDue] at hs
  cases hs
  cases s.block.busy <;> exact hl

/-- Settles O16: the pins by the two cases of RELEASED, the latches by the lemma on an edge with neither a reset nor a
micro-step. -/
theorem pinsShowTheLatchesUntilReleased : Obligations.PinsShowTheLatchesUntilReleased :=
  ⟨fun _ => ⟨pins_of_owned, pins_of_released⟩,
    fun _ _ hr hq hs => Block.outputLatches_eq_iff.mp (step_keeps_outputLatches hr hq hs)⟩

end Sys2Proof.Machine
end

section
/-! PROOFS. The host registers (spec/20_memory.md R51, R55): the lanes of the RXDATA words and the value of CMD. -/

namespace Sys2Proof.Machine

/-! ### Byte lanes (R55) -/

/-- The lane order of R55, with the four bytes as a function of the lane, so that both halves of the receive buffer are
instances of it. -/
theorem lanes_extractLsb' (f : Fin 4 → Byte) (m : Fin 4) :
    (lanes (f 3) (f 2) (f 1) (f 0)).extractLsb' (8 * m.val) 8 = f m := by
  unfold lanes
  match m with
  | 0 => exact BitVec.extractLsb'_append_eq_right
  | 1 =>
    rw [BitVec.extractLsb'_append_eq_of_le (by decide)]
    exact BitVec.extractLsb'_append_eq_right
  | 2 =>
    rw [BitVec.extractLsb'_append_eq_of_le (by decide), BitVec.extractLsb'_append_eq_of_le (by decide)]
    exact BitVec.extractLsb'_append_eq_right
  | 3 =>
    rw [BitVec.extractLsb'_append_eq_of_le (by decide), BitVec.extractLsb'_append_eq_of_le (by decide)]
    exact BitVec.extractLsb'_append_eq_left

/-! ### Values of the host registers (R38, R51) -/

@[simp] theorem readReg_cmd (b : Block) : readReg b .cmd = 0 := rfl

@[simp] theorem readReg_status (b : Block) : readReg b .status = statusWord b := rfl

@[simp] theorem readReg_rxdata0 (b : Block) : readReg b .rxdata0 = rxdata0Word b := rfl

@[simp] theorem readReg_rxdata1 (b : Block) : readReg b .rxdata1 = rxdata1Word b := rfl

theorem rxdata0Word_extractLsb' (b : Block) (m : Fin 4) :
    (rxdata0Word b).extractLsb' (8 * m.val) 8 = b.rxbuf[m.val] :=
  lanes_extractLsb' (fun k => b.rxbuf[k.val]) m

theorem rxdata1Word_extractLsb' (b : Block) (m : Fin 4) :
    (rxdata1Word b).extractLsb' (8 * m.val) 8 = b.rxbuf[4 + m.val] :=
  lanes_extractLsb' (fun k => b.rxbuf[4 + k.val]) m

/-- Settles O11: each RXDATA word is `lanes` of its half of the receive buffer, read lane by lane. -/
theorem rxDataHoldsTheBufferInLanes : Obligations.RxDataHoldsTheBufferInLanes := by
  intro b
  refine ⟨fun m => ?_, fun m => ?_, readReg_cmd b⟩
  · rw [readReg_rxdata0, rxdata0Word_extractLsb']
  · rw [readReg_rxdata1, rxdata1Word_extractLsb']

end Sys2Proof.Machine
end

section
/-! PROOFS. The command word (spec/30_encoding.md R70 to R77): the word is its five fields, the decoder in terms of the
latched fields, and the rows of the opcode table in the same terms. -/

namespace Sys2Proof.Machine

open Sys2Proof.Laws.EncodeFields (fieldsOf)

/-! ### The word is its five fields (R70) -/

/-- The five fields stand side by side in the word, OP first. -/
theorem fields_append (w : Word) :
    opField w ++ (cntField w ++ (rsvField w ++ (addrField w ++ dataField w))) = w := by
  unfold opField cntField rsvField addrField dataField
  iterate 4 rw [BitVec.extractLsb'_append_extractLsb'_eq_extractLsb' (by decide)]
  exact BitVec.extractLsb'_eq_self

/-- Two words are equal exactly when RSV and the four latched fields are. -/
theorem word_eq_iff_fields {w w' : Word} :
    w = w' ↔ rsvField w = rsvField w' ∧ latchOfWord w = latchOfWord w' := by
  refine ⟨fun h => h ▸ ⟨rfl, rfl⟩, fun ⟨hrsv, hlatch⟩ => ?_⟩
  obtain ⟨hop, hcnt, haddr, hdata⟩ := Latch.mk.inj hlatch
  rw [← fields_append w, ← fields_append w', hop, hcnt, hrsv, haddr, hdata]

theorem append_eq_zero_iff {m n : Nat} {x : BitVec m} {y : BitVec n} : x ++ y = 0#(m + n) ↔ x = 0#m ∧ y = 0#n := by
  refine ⟨fun h => ⟨?_, ?_⟩, fun ⟨hx, hy⟩ => by rw [hx, hy, BitVec.zero_append_zero]⟩
  · rw [← BitVec.extractLsb'_append_eq_left (a := x) (b := y), h, BitVec.extractLsb'_zero]
  · rw [← BitVec.extractLsb'_append_eq_right (a := x) (b := y), h, BitVec.extractLsb'_zero]

/-- Bits 27:0 are 0 exactly when every field below OP is. -/
theorem belowOp_eq_zero_iff {w : Word} :
    belowOp w = 0#28 ↔ cntField w = 0#4 ∧ rsvField w = 0#10 ∧ addrField w = 0#6 ∧ dataField w = 0#8 := by
  have hbelow : belowOp w = cntField w ++ (rsvField w ++ (addrField w ++ dataField w)) := by
    unfold belowOp cntField rsvField addrField dataField
    iterate 3 rw [BitVec.extractLsb'_append_extractLsb'_eq_extractLsb' (by decide)]
  rw [hbelow, ← append_eq_zero_iff, ← append_eq_zero_iff, ← append_eq_zero_iff]

/-- A mask acts on every field of a word by itself. -/
theorem and_mask_eq_iff {w mask bits : Word} :
    w &&& mask = bits ↔ rsvField w &&& rsvField mask = rsvField bits ∧
      opField w &&& opField mask = opField bits ∧ cntField w &&& cntField mask = cntField bits ∧
      addrField w &&& addrField mask = addrField bits ∧ dataField w &&& dataField mask = dataField bits := by
  rw [word_eq_iff_fields]
  simp [latchOfWord, opField, cntField, rsvField, addrField, dataField, BitVec.extractLsb'_and]

/-! ### The decoder by the latched fields (R77) -/

/-- The latched fields, given one by one; OP as the number the decoder branches on. -/
theorem latchOfWord_eq {w : Word} {l : Latch} (hop : (opField w).toNat = l.op.toNat) (hcnt : cntField w = l.cnt)
    (haddr : addrField w = l.addr) (hdata : dataField w = l.data) : latchOfWord w = l := by
  cases l
  simp_all [latchOfWord, BitVec.eq_of_toNat_eq hop]

/-- A checked branch of the decoder answers a command only when the check passes. -/
theorem cmd_of_ite {c : Prop} [Decidable c] {j i : Instr} {d : Decoded} (hd : d = .illegal ∨ d = .badCount)
    (h : (if c then .cmd j else d) = .cmd i) : c ∧ j = i := by
  split at h
  · next hc => exact ⟨hc, Decoded.cmd.inj h⟩
  · obtain rfl | rfl := hd <;> cases h

/-- A word that decodes to a command has the reserved field 0 and the command's fields, and the count is in range. -/
theorem fields_of_decode {w : Word} {i : Instr} (h : decode w = .cmd i) :
    i.WellFormed ∧ rsvField w = 0 ∧ latchOfWord w = fieldsOf i := by
  unfold decode at h
  split at h
  next hop =>
    obtain ⟨⟨hcnt, hrsv, haddr⟩, rfl⟩ := cmd_of_ite (.inl rfl) h
    exact ⟨rfl, hrsv, latchOfWord_eq hop hcnt haddr rfl⟩
  next hop =>
    obtain ⟨hbelow, rfl⟩ := cmd_of_ite (.inl rfl) h
    obtain ⟨hcnt, hrsv, haddr, hdata⟩ := belowOp_eq_zero_iff.mp hbelow
    exact ⟨rfl, hrsv, latchOfWord_eq hop hcnt haddr hdata⟩
  next hop =>
    obtain ⟨⟨hcnt, hrsv⟩, rfl⟩ := cmd_of_ite (.inl rfl) h
    exact ⟨rfl, hrsv, latchOfWord_eq hop hcnt rfl rfl⟩
  next hop =>
    split at h
    next hzero =>
      obtain ⟨hrsv, hdata⟩ := hzero
      obtain ⟨hcount, rfl⟩ := cmd_of_ite (.inr rfl) h
      exact ⟨decide_eq_true hcount, hrsv, latchOfWord_eq hop rfl rfl hdata⟩
    next => cases h
  next hop =>
    obtain ⟨hbelow, rfl⟩ := cmd_of_ite (.inl rfl) h
    obtain ⟨hcnt, hrsv, haddr, hdata⟩ := belowOp_eq_zero_iff.mp hbelow
    exact ⟨rfl, hrsv, latchOfWord_eq hop hcnt haddr hdata⟩
  next => cases h

/-- The converse: the fields of a command with its count in range decode to it. -/
theorem decode_of_fields {w : Word} {i : Instr} (hwf : i.WellFormed) (hrsv : rsvField w = 0)
    (hlatch : latchOfWord w = fieldsOf i) : decode w = .cmd i := by
  obtain ⟨hop, hcnt, haddr, hdata⟩ := Latch.mk.inj hlatch
  cases i with
  | sendByte d => simp_all [decode]
  | recvByte => simp_all [decode, belowOp_eq_zero_iff.mpr ⟨hcnt, hrsv, haddr, hdata⟩]
  | writeReg a d => simp_all [decode]
  | readRegs a n => simp_all [decode, Instr.WellFormed, Instr.wf]
  | release => simp_all [decode, belowOp_eq_zero_iff.mpr ⟨hcnt, hrsv, haddr, hdata⟩]

/-! ### The rows of the table by the latched fields (R73) -/

/-- A statement about some command, case by case along the commands. -/
theorem exists_instr_iff {p : Instr → Prop} :
    (∃ i, p i) ↔ (∃ d, p (.sendByte d)) ∨ p .recvByte ∨ (∃ a d, p (.writeReg a d)) ∨ (∃ a n, p (.readRegs a n)) ∨
      p .release := by
  constructor
  · rintro ⟨i, hi⟩
    cases i with
    | sendByte d => exact .inl ⟨d, hi⟩
    | recvByte => exact .inr (.inl hi)
    | writeReg a d => exact .inr (.inr (.inl ⟨a, d, hi⟩))
    | readRegs a n => exact .inr (.inr (.inr (.inl ⟨a, n, hi⟩)))
    | release => exact .inr (.inr (.inr (.inr hi)))
  · rintro (⟨d, h⟩ | h | ⟨a, d, h⟩ | ⟨a, n, h⟩ | h) <;> exact ⟨_, h⟩

/-- R73: a row matches exactly the words whose RSV is 0 and whose other fields are those of a command of the row. -/
theorem matches_row_iff {w : Word} {r : Row} (hr : r ∈ rows) :
    w &&& r.mask = r.matchBits ↔
      rsvField w = 0 ∧ ∃ i : Instr, i.mnemonic = r.mnemonic ∧ latchOfWord w = fieldsOf i := by
  have ones4 (x : Nibble) : x &&& 15#4 = x := BitVec.and_allOnes
  have ones6 (x : RegAddr) : x &&& 63#6 = x := BitVec.and_allOnes
  have ones8 (x : Byte) : x &&& 255#8 = x := BitVec.and_allOnes
  have ones10 (x : BitVec 10) : x &&& 1023#10 = x := BitVec.and_allOnes
  rw [and_mask_eq_iff, exists_instr_iff]
  simp only [rows, List.mem_cons, List.not_mem_nil, or_false] at hr
  obtain rfl | rfl | rfl | rfl | rfl := hr <;>
    simp [Instr.mnemonic, latchOfWord, fieldsOf, opField, cntField, rsvField, addrField, dataField, ones4, ones6,
      ones8, ones10]

/-- The one check of R73 beside the rows, in the table's words. -/
theorem wellFormed_iff_count {i : Instr} :
    i.WellFormed ↔ (i.mnemonic = "READ_REGS" → (fieldsOf i).cnt.toNat ≤ 8) := by
  cases i with
  | readRegs a n => simp [Instr.WellFormed, Instr.wf, Instr.mnemonic, fieldsOf, Config.cntMax, BitVec.le_def]
  | sendByte d => simp [Instr.WellFormed, Instr.wf, Instr.mnemonic]
  | recvByte => simp [Instr.WellFormed, Instr.wf, Instr.mnemonic]
  | writeReg a d => simp [Instr.WellFormed, Instr.wf, Instr.mnemonic]
  | release => simp [Instr.WellFormed, Instr.wf, Instr.mnemonic]

theorem exists_row (i : Instr) : ∃ r ∈ rows, r.mnemonic = i.mnemonic := by
  cases i <;> simp [rows, Instr.mnemonic]

/-- The decoder and the table agree on a word and the command's name (R73, R77). -/
theorem exists_cmd_iff_exists_row {w : Word} {m : String} :
    (∃ i, decode w = .cmd i ∧ i.mnemonic = m) ↔
      ∃ r ∈ rows, r.mnemonic = m ∧ w &&& r.mask = r.matchBits ∧ (m = "READ_REGS" → (cntField w).toNat ≤ 8) := by
  constructor
  · rintro ⟨i, hdec, rfl⟩
    obtain ⟨hwf, hrsv, hlatch⟩ := fields_of_decode hdec
    obtain ⟨r, hr, hname⟩ := exists_row i
    refine ⟨r, hr, hname, (matches_row_iff hr).mpr ⟨hrsv, i, hname.symm, hlatch⟩, ?_⟩
    have hcnt : cntField w = (fieldsOf i).cnt := congrArg Latch.cnt hlatch
    rw [hcnt]
    exact wellFormed_iff_count.mp hwf
  · rintro ⟨r, hr, rfl, hmatch, hcount⟩
    obtain ⟨hrsv, i, hname, hlatch⟩ := (matches_row_iff hr).mp hmatch
    have hcnt : cntField w = (fieldsOf i).cnt := congrArg Latch.cnt hlatch
    rw [hcnt, ← hname] at hcount
    exact ⟨i, decode_of_fields (wellFormed_iff_count.mpr hcount) hrsv hlatch, hname⟩

/-! ### No two rows match one word (R73) -/

theorem opField_mask : ∀ r ∈ rows, opField r.mask = BitVec.allOnes 4 := by decide

theorem row_eq_of_opField : ∀ r ∈ rows, ∀ r' ∈ rows, opField r.matchBits = opField r'.matchBits → r = r' := by decide

/-- Every row's mask covers OP, so a row matches only words with its own OP. -/
theorem opField_of_matches {w : Word} {r : Row} (hr : r ∈ rows) (hmatch : w &&& r.mask = r.matchBits) :
    opField w = opField r.matchBits := by
  obtain ⟨-, hop, -⟩ := and_mask_eq_iff.mp hmatch
  rwa [opField_mask r hr, BitVec.and_allOnes] at hop

theorem row_eq_of_matches {w : Word} {r r' : Row} (hr : r ∈ rows) (hr' : r' ∈ rows)
    (hmatch : w &&& r.mask = r.matchBits) (hmatch' : w &&& r'.mask = r'.matchBits) : r = r' :=
  row_eq_of_opField r hr r' hr' ((opField_of_matches hr hmatch).symm.trans (opField_of_matches hr' hmatch'))

/-- Settles O3: decoder and rows are both read as conditions on the word's fields; no two rows match one word because
their OP values differ. -/
theorem commandWordsAreTheTablesRows : Obligations.CommandWordsAreTheTablesRows :=
  ⟨fun _ _ => exists_cmd_iff_exists_row, fun _ _ _ hr hr' => row_eq_of_matches hr hr'⟩

end Sys2Proof.Machine
end

section
/-! PROOFS. The micro-operations and the micro-step engine (spec/40_line_ops.md R92 to R97): what each operation writes,
the receive shift as arithmetic, and the block after one micro-step. -/

namespace Sys2Proof.Machine

/-! ### Line operations (R92 to R94, R96) -/

@[simp] theorem perform_cs (v m : Bool) (b : Block) : perform (.cs v) m b = { b with csNQ := v } := rfl
@[simp] theorem perform_clk (v m : Bool) (b : Block) : perform (.clk v) m b = { b with sclkQ := v } := rfl
@[simp] theorem perform_dout (v m : Bool) (b : Block) : perform (.dout v) m b = { b with mosiQ := v } := rfl
@[simp] theorem perform_rel (m : Bool) (b : Block) : perform .rel m b = { b with released := true } := rfl
@[simp] theorem perform_sample (k : Fin 8) (last m : Bool) (b : Block) :
    perform (.sample k last) m b = b.sample k last m := rfl

/-- Settles O25: the equations of the four operations that do not sample. -/
theorem lineOperationsWriteOneField : Obligations.LineOperationsWriteOneField :=
  fun b m v => ⟨perform_cs v m b, perform_clk v m b, perform_dout v m b, perform_rel m b⟩

/-! ### SAMPLE (R95) -/

/-- The receive shift is the library's shift that brings a bit in at the low end. -/
theorem shiftIn_eq_shiftConcat (sh : Byte) (m : Bool) : shiftIn sh m = sh.shiftConcat m := by
  apply BitVec.eq_of_getLsbD_eq
  intro j hj
  rw [shiftIn_getLsbD, BitVec.getLsbD_shiftConcat]
  simp [hj]

theorem shiftIn_toNat (sh : Byte) (m : Bool) : (shiftIn sh m).toNat = (sh.toNat * 2 + m.toNat) % 256 := by
  rw [shiftIn_eq_shiftConcat, BitVec.toNat_shiftConcat, Nat.shiftLeft_eq, Nat.pow_one]

/-- Settles O26: the byte both forms of SAMPLE write is `shiftIn` of SHREG and the level. -/
theorem sampleShiftsInTheMisoLevel : Obligations.SampleShiftsInTheMisoLevel := by
  intro b m k
  refine ⟨shiftIn b.shreg m, shiftIn_toNat b.shreg m, ?_, ?_⟩
  · rw [perform_sample, Block.sample_of_not_last]
  · rw [perform_sample, Block.sample_of_last]

/-! ### The micro-step (R97) -/

theorem Block.advance_of_last {b : Block} (h : b.upc.toNat + 1 = (script b.latch).length) :
    b.advance = b.complete := if_pos h

theorem Block.advance_of_not_last {b : Block} (h : b.upc.toNat + 1 ≠ (script b.latch).length) :
    b.advance = { b with upc := b.upc + 1 } := if_neg h

/-- The last micro-operation of a script completes the command. No micro-operation writes the latch or UPC, so the end
of the script is judged on the block before it. -/
theorem perform_advance_of_last {b : Block} (h : b.upc.toNat + 1 = (script b.latch).length) (op : MicroOp) (m : Bool) :
    (perform op m b).advance = (perform op m b).complete := by
  obtain ⟨-, -, -, -, hlatch, hupc, -⟩ := perform_keeps op m b
  apply Block.advance_of_last
  rwa [hlatch, hupc]

/-- Every micro-operation before the last of a script moves UPC to the next. -/
theorem perform_advance_of_not_last {b : Block} (h : b.upc.toNat + 1 ≠ (script b.latch).length) (op : MicroOp)
    (m : Bool) : (perform op m b).advance = { perform op m b with upc := b.upc + 1 } := by
  obtain ⟨-, -, -, -, hlatch, hupc, -⟩ := perform_keeps op m b
  rw [Block.advance_of_not_last (by rwa [hlatch, hupc]), hupc]

/-- Settles O27: the micro-step of a due operation, with its advance in the two cases of R97. -/
theorem microStepPerformsTheDueOperation : Obligations.MicroStepPerformsTheDueOperation := by
  intro b m op hdue
  rw [Block.microStep_of_due hdue]
  constructor
  · intro hmore
    rw [perform_advance_of_not_last hmore.ne]
  · intro hlast
    rw [perform_advance_of_last hlast, Block.complete]

end Sys2Proof.Machine
end

section
/-! PROOFS. A run of micro-steps as the micro-operations of the script performed in order (spec/40_line_ops.md R91,
R97). -/

namespace Sys2Proof.Machine

/-! ### Micro-operations performed in order -/

/-- The block after some micro-operations performed in order, with the level `miso j` on MISO at the j-th micro-step;
the first of them is the one of micro-step `i`. -/
def performFrom (miso : Nat → Bool) : Nat → List MicroOp → Block → Block
  | _, [], b => b
  | i, op :: ops, b => performFrom miso (i + 1) ops (perform op (miso i) b)

@[simp] theorem performFrom_nil (miso : Nat → Bool) (i : Nat) (b : Block) : performFrom miso i [] b = b := rfl

@[simp] theorem performFrom_cons (miso : Nat → Bool) (i : Nat) (op : MicroOp) (ops : List MicroOp) (b : Block) :
    performFrom miso i (op :: ops) b = performFrom miso (i + 1) ops (perform op (miso i) b) := rfl

theorem performFrom_append (miso : Nat → Bool) (i : Nat) (ops ops' : List MicroOp) (b : Block) :
    performFrom miso i (ops ++ ops') b = performFrom miso (i + ops.length) ops' (performFrom miso i ops b) := by
  induction ops generalizing i b with
  | nil => rfl
  | cons op ops ih =>
    rw [List.cons_append, performFrom_cons, performFrom_cons, ih, List.length_cons, Nat.add_right_comm, Nat.add_assoc]

/-- With one level on MISO throughout, it is the fold of `perform`. -/
theorem performFrom_const (m : Bool) (i : Nat) (ops : List MicroOp) (b : Block) :
    performFrom (fun _ => m) i ops b = ops.foldl (fun b op => perform op m b) b := by
  induction ops generalizing i b with
  | nil => rfl
  | cons op ops ih => exact ih (i + 1) (perform op m b)

@[simp] theorem performFrom_latch (miso : Nat → Bool) (i : Nat) (ops : List MicroOp) (b : Block) :
    (performFrom miso i ops b).latch = b.latch := by
  induction ops generalizing i b with
  | nil => rfl
  | cons op ops ih =>
    obtain ⟨-, -, -, -, hlatch, -, -⟩ := perform_keeps op (miso i) b
    rw [performFrom_cons, ih, hlatch]

/-- No micro-operation reads or writes UPC or TICK. -/
theorem perform_setIndex (op : MicroOp) (m : Bool) (b : Block) (u : BitVec 8) (k : Nat) :
    perform op m { b with upc := u, tick := k } = { perform op m b with upc := u, tick := k } := by
  cases op with
  | sample k last => cases last <;> rfl
  | cs v => rfl
  | clk v => rfl
  | dout v => rfl
  | rel => rfl

/-! ### Runs of micro-steps -/

/-- The last micro-step of a run, split off. -/
theorem runMicro_succ (miso : Nat → Bool) (n : Nat) (b : Block) :
    runMicro miso (n + 1) b = (runMicro miso n b).bind (Block.microStep (miso n)) := by
  induction n generalizing miso b with
  | zero => simp [runMicro]
  | succ n ih =>
    rw [runMicro, runMicro, Option.bind_assoc]
    exact congrArg _ (funext fun c => ih _ c)

/-- A block after the first `j` micro-operations of its script, before any completion. -/
def Block.afterOps (b : Block) (miso : Nat → Bool) (j : Nat) : Block :=
  { performFrom miso 0 ((script b.latch).take j) b with upc := BitVec.ofNat 8 j, tick := 0 }

@[simp] theorem Block.afterOps_latch (b : Block) (miso : Nat → Bool) (j : Nat) :
    (b.afterOps miso j).latch = b.latch := performFrom_latch miso 0 _ b

theorem Block.afterOps_zero {b : Block} (hupc : b.upc = 0) (htick : b.tick = 0) (miso : Nat → Bool) :
    b.afterOps miso 0 = b := by
  obtain ⟨⟩ := b
  cases hupc
  cases htick
  rfl

theorem Block.afterOps_upc {b : Block} {j : Nat} (hj : j < (script b.latch).length) (miso : Nat → Bool) :
    (b.afterOps miso j).upc.toNat = j :=
  Nat.mod_eq_of_lt (by have := script_length_le b.latch; omega)

/-- Performing the next micro-operation of the script, UPC apart. -/
theorem Block.perform_afterOps {b : Block} {op : MicroOp} {j : Nat} (hop : (script b.latch)[j]? = some op)
    (miso : Nat → Bool) :
    perform op (miso j) (b.afterOps miso j) = { b.afterOps miso (j + 1) with upc := BitVec.ofNat 8 j } := by
  obtain ⟨hj, -⟩ := List.getElem?_eq_some_iff.mp hop
  simp only [Block.afterOps, perform_setIndex, List.take_add_one, hop, Option.toList_some, performFrom_append,
    List.length_take_of_le hj.le, performFrom_cons, performFrom_nil, Nat.zero_add]

/-- The next micro-step, when more micro-operations follow and when it is the last. -/
theorem Block.microStep_afterOps {b : Block} {j : Nat} (hj : j < (script b.latch).length) (miso : Nat → Bool) :
    (j + 1 < (script b.latch).length → (b.afterOps miso j).microStep (miso j) = some (b.afterOps miso (j + 1))) ∧
    (j + 1 = (script b.latch).length →
      (b.afterOps miso j).microStep (miso j) = some (b.afterOps miso (j + 1)).complete) := by
  have hop : (script b.latch)[j]? = some (script b.latch)[j] := List.getElem?_eq_getElem hj
  have hdue : (script (b.afterOps miso j).latch)[(b.afterOps miso j).upc.toNat]? = some (script b.latch)[j] := by
    rw [Block.afterOps_latch, Block.afterOps_upc hj, hop]
  obtain ⟨hmore, hlast⟩ := microStepPerformsTheDueOperation (b.afterOps miso j) (miso j) _ hdue
  rw [Block.afterOps_latch, Block.afterOps_upc hj, Block.perform_afterOps hop] at hmore hlast
  refine ⟨fun h => (hmore h).trans ?_, hlast⟩
  have hnext : (b.afterOps miso j).upc + 1 = BitVec.ofNat 8 (j + 1) := (BitVec.ofNat_add j 1).symm
  rw [hnext]
  rfl

/-- A run from the start of a script that does not complete it. -/
theorem runMicro_of_lt {b : Block} (hupc : b.upc = 0) (htick : b.tick = 0) (miso : Nat → Bool) {j : Nat}
    (hj : j < (script b.latch).length) : runMicro miso j b = some (b.afterOps miso j) := by
  induction j with
  | zero => rw [Block.afterOps_zero hupc htick, runMicro]
  | succ j ih =>
    have hj' := Nat.lt_of_succ_lt hj
    rw [runMicro_succ, ih hj', Option.bind_some, (Block.microStep_afterOps hj' miso).1 hj]

/-- A run over a whole script completes the command. -/
theorem runMicro_of_eq_length {b : Block} (hupc : b.upc = 0) (htick : b.tick = 0) (miso : Nat → Bool) {j : Nat}
    (hj : j + 1 = (script b.latch).length) : runMicro miso (j + 1) b = some (b.afterOps miso (j + 1)).complete := by
  have hj' : j < (script b.latch).length := by omega
  rw [runMicro_succ, runMicro_of_lt hupc htick miso hj', Option.bind_some, (Block.microStep_afterOps hj' miso).2 hj]

end Sys2Proof.Machine
end

section
/-! PROOFS. The byte framer (spec/41_byte_framer.md R100 to R104): what sendBits leaves, the byte that eight samples
make, and when each received byte is committed to the receive buffer. -/

namespace Sys2Proof.Machine

/-! ### Transmission (R100) -/

theorem performFrom_sendBit (miso : Nat → Bool) (i : Nat) (v : Bool) (b : Block) :
    performFrom miso i (sendBit v) b = { b with sclkQ := false, mosiQ := v } := rfl

/-- Bits sent in order leave the last of them on MOSI: each bit overwrites what the one before it wrote. -/
theorem performFrom_sendBit_concat (miso : Nat → Bool) (i : Nat) (bits : List Bool) (v : Bool) (b : Block) :
    performFrom miso i ((bits ++ [v]).flatMap sendBit) b = { b with sclkQ := false, mosiQ := v } := by
  induction bits generalizing i b with
  | nil => exact performFrom_sendBit miso i v b
  | cons u bits ih => rw [List.cons_append, List.flatMap_cons, performFrom_append, performFrom_sendBit, ih]

theorem performFrom_sendBits (miso : Nat → Bool) (i : Nat) (v : Byte) (b : Block) :
    performFrom miso i (sendBits v) b = { b with sclkQ := false, mosiQ := v.getLsbD 0 } :=
  performFrom_sendBit_concat miso i [v.getLsbD 7, v.getLsbD 6, v.getLsbD 5, v.getLsbD 4, v.getLsbD 3, v.getLsbD 2,
    v.getLsbD 1] (v.getLsbD 0) b

theorem wireBits_eq_map_range (v : Byte) : wireBits v = (List.range 8).map fun j => v.getLsbD (7 - j) := rfl

/-- Settles O30: sendBits is `sendBit` of each bit of the wire order, and the last bit sent is bit 0. -/
theorem sendBitsSequenceAndEffect : Obligations.SendBitsSequenceAndEffect := by
  intro v
  refine ⟨?_, sendBits_length v, fun b m => ?_⟩
  · rw [sendBits, wireBits_eq_map_range, List.flatMap_map]
    rfl
  · rw [← performFrom_const m 0, performFrom_sendBits]

/-! ### The byte of eight samples (R103, R109) -/

/-- Eight shifts push every old bit of SHREG out. -/
theorem shiftIn_eight (sh : Byte) (b7 b6 b5 b4 b3 b2 b1 b0 : Bool) :
    [b7, b6, b5, b4, b3, b2, b1, b0].foldl shiftIn sh = byteOfSamples b7 b6 b5 b4 b3 b2 b1 b0 := by
  apply BitVec.eq_of_toNat_eq
  simp only [List.foldl_cons, List.foldl_nil, shiftIn_toNat, byteOfSamples, BitVec.toNat_ofNat]
  omega

/-! ### The receive buffer over micro-operations (R95, R104) -/

/-- The receive buffer and its count. -/
def Block.received (b : Block) : Vector Byte 8 × BitVec 4 := (b.rxbuf, b.rxcnt)

theorem Block.received_eq_iff {b c : Block} : c.received = b.received ↔ c.rxbuf = b.rxbuf ∧ c.rxcnt = b.rxcnt := by
  simp [Block.received]

/-- Only a SAMPLE that completes a byte writes the receive buffer. -/
theorem perform_received {op : MicroOp} (h : op.commits = false) (m : Bool) (b : Block) :
    (perform op m b).received = b.received := by
  cases op with
  | sample k last =>
    obtain rfl : last = false := h
    rfl
  | cs v => rfl
  | clk v => rfl
  | dout v => rfl
  | rel => rfl

/-- Some micro-operations complete no received byte. -/
def Quiet (ops : List MicroOp) : Prop := ∀ op ∈ ops, op.commits = false

theorem Quiet.take {ops : List MicroOp} (h : Quiet ops) (j : Nat) : Quiet (ops.take j) :=
  fun op hop => h op (List.mem_of_mem_take hop)

theorem Quiet.append {ops ops' : List MicroOp} (h : Quiet ops) (h' : Quiet ops') : Quiet (ops ++ ops') :=
  fun op hop => (List.mem_append.mp hop).elim (h op) (h' op)

theorem quiet_nil : Quiet [] := by simp [Quiet]

theorem quiet_cs (v : Bool) : Quiet [.cs v] := by simp [Quiet, MicroOp.commits]

theorem quiet_clk (v : Bool) : Quiet [.clk v] := by simp [Quiet, MicroOp.commits]

theorem quiet_sendBits (v : Byte) : Quiet (sendBits v) := by
  simp [Quiet, sendBits, wireBits, sendBit, MicroOp.commits]

theorem performFrom_received {ops : List MicroOp} (h : Quiet ops) (miso : Nat → Bool) (i : Nat) (b : Block) :
    (performFrom miso i ops b).received = b.received := by
  induction ops generalizing i b with
  | nil => rfl
  | cons op ops ih =>
    obtain ⟨hop, hops⟩ := List.forall_mem_cons.mp h
    rw [performFrom_cons, ih hops, perform_received hop]

/-! ### One received byte (R103) -/

theorem quiet_recvBits_take {k : Fin 8} {q : Nat} (hq : q ≤ 22) : Quiet ((recvBits k).take q) := by
  have h : Quiet ((recvBits k).take 22) := by simp [Quiet, recvBits, recvBit, MicroOp.commits]
  rw [← Nat.min_eq_left hq, ← List.take_take]
  exact h.take q

/-- Up to its eighth SAMPLE, receiving a byte commits the eight samples whatever SHREG was. -/
theorem performFrom_recvBits_take_23 (miso : Nat → Bool) (i : Nat) (k : Fin 8) (b : Block) :
    performFrom miso i ((recvBits k).take 23) b =
      { b with sclkQ := true, shreg := sampledByte miso (i + 1), rxbuf := b.rxbuf.set k (sampledByte miso (i + 1)),
               rxcnt := BitVec.ofNat 4 (k.val + 1) } := by
  have hbyte : sampledByte miso (i + 1) = _ := (shiftIn_eight b.shreg _ _ _ _ _ _ _ _).symm
  rw [hbyte]
  simp [recvBits, recvBit, Block.sample_of_not_last, Block.sample_of_last]

/-- The receive buffer over the micro-operations of one byte: it changes at the 23rd, the eighth SAMPLE. -/
theorem performFrom_recvBits_take_received (miso : Nat → Bool) (i : Nat) (k : Fin 8) (b : Block) {q : Nat}
    (hq : q ≤ 24) :
    (performFrom miso i ((recvBits k).take q) b).received =
      if 22 < q then (b.rxbuf.set k (sampledByte miso (i + 1)), BitVec.ofNat 4 (k.val + 1)) else b.received := by
  split
  · have hrest : Quiet (((recvBits k).drop 23).take (q - 23)) :=
      (quiet_clk false).take _
    have hsplit : (recvBits k).take q = (recvBits k).take 23 ++ ((recvBits k).drop 23).take (q - 23) := by
      rw [← List.take_add]
      congr 1
      omega
    rw [hsplit, performFrom_append, performFrom_received hrest, performFrom_recvBits_take_23]
    rfl
  · exact performFrom_received (quiet_recvBits_take (by omega)) miso i b

/-! ### The receive slots in order (R104, R126) -/

/-- The micro-operations of the receive slots 0 to m-1. -/
def slotOps (m : Nat) : List MicroOp := (slots m).flatMap recvBits

theorem slotOps_succ (k : Fin 8) : slotOps (k.val + 1) = slotOps k.val ++ recvBits k := by
  have hslots : ∀ k : Fin 8, slots (k.val + 1) = slots k.val ++ [k] := by decide
  rw [slotOps, slotOps, hslots, List.flatMap_append, List.flatMap_singleton]

theorem slotOps_length {m : Nat} (hm : m ≤ 8) : (slotOps m).length = 24 * m := by
  induction m with
  | zero => rfl
  | succ m ih =>
    rw [slotOps_succ ⟨m, hm⟩, List.length_append, recvBits_length, ih (Nat.le_of_succ_le hm)]
    rfl

/-- The receive buffer after `r` micro-operations of receive slots, the first of them that of micro-step `i`: byte `k`
is there once its 23rd micro-operation is, the others are 0x00, and the count is the number of bytes there. -/
def Block.HasReceived (b : Block) (miso : Nat → Bool) (i r : Nat) : Prop :=
  (∀ k : Fin 8, b.rxbuf[k] = if 22 + 24 * k.val < r then sampledByte miso (i + 1 + 24 * k.val) else 0) ∧
    b.rxcnt.toNat = (r + 1) / 24

theorem Block.HasReceived.of_received {b c : Block} {miso : Nat → Bool} {i r : Nat} (h : b.HasReceived miso i r)
    (hc : c.received = b.received) : c.HasReceived miso i r := by
  obtain ⟨hbuf, hcnt⟩ := Block.received_eq_iff.mp hc
  rwa [Block.HasReceived, hbuf, hcnt]

/-- One more byte, or the beginning of it. -/
theorem Block.HasReceived.performFrom_recvBits {b : Block} {miso : Nat → Bool} {i q : Nat} {k : Fin 8}
    (h : b.HasReceived miso i (24 * k.val)) (hq : q ≤ 24) :
    (performFrom miso (i + 24 * k.val) ((recvBits k).take q) b).HasReceived miso i (24 * k.val + q) := by
  have hrx := performFrom_recvBits_take_received miso (i + 24 * k.val) k b hq
  obtain ⟨hbuf, hcnt⟩ := h
  split at hrx
  · next hlast =>
    obtain ⟨hbuf', hcnt'⟩ := Prod.mk.inj hrx
    refine ⟨fun k' => ?_, ?_⟩
    · rw [hbuf']
      by_cases hk : k = k'
      · subst hk
        rw [if_pos (by omega), Nat.add_right_comm]
        exact Vector.getElem_set_self k.isLt
      · have hne : k.val ≠ k'.val := fun e => hk (Fin.ext e)
        have hset : (b.rxbuf.set k (sampledByte miso (i + 24 * k.val + 1)))[k'] = b.rxbuf[k'] :=
          Vector.getElem_set_ne k.isLt k'.isLt hne
        rw [hset, hbuf k']
        exact if_congr (by omega) rfl rfl
    · rw [hcnt', BitVec.toNat_ofNat]
      omega
  · next hnot =>
    refine Block.HasReceived.of_received (b := b) ⟨fun k' => (hbuf k').trans ?_, by omega⟩ hrx
    exact if_congr (by omega) rfl rfl

/-- The slots from a cleared receive buffer, up to any micro-operation. -/
theorem performFrom_slotOps_take {b : Block} {miso : Nat → Bool} {i m r : Nat} (h : b.HasReceived miso i 0)
    (hm : m ≤ 8) (hr : r ≤ 24 * m) : (performFrom miso i ((slotOps m).take r) b).HasReceived miso i r := by
  induction m generalizing r with
  | zero =>
    obtain rfl : r = 0 := by omega
    exact h
  | succ m ih =>
    have hm' : m ≤ 8 := Nat.le_of_succ_le hm
    have hlen : (slotOps m).length = 24 * m := slotOps_length hm'
    rw [slotOps_succ ⟨m, hm⟩]
    rcases Nat.le_total r (24 * m) with hle | hle
    · rw [List.take_append_of_le_length (by rwa [hlen])]
      exact ih hm' hle
    · obtain ⟨q, rfl⟩ := Nat.exists_eq_add_of_le hle
      have hwhole := ih hm' (Nat.le_refl (24 * m))
      rw [← hlen, List.take_length, hlen] at hwhole
      rw [← hlen, List.take_length_add_append, performFrom_append, hlen]
      exact Block.HasReceived.performFrom_recvBits (k := ⟨m, hm⟩) hwhole (by omega)

/-- The slots with micro-operations before and after them that complete no byte. -/
theorem performFrom_take_of_slotOps {b : Block} {miso : Nat → Bool} {pre post : List MicroOp} {m : Nat}
    (h : b.HasReceived miso pre.length 0) (hpre : Quiet pre) (hpost : Quiet post) (hm : m ≤ 8) (j : Nat) :
    (performFrom miso 0 ((pre ++ slotOps m ++ post).take j) b).HasReceived miso pre.length
      (min (j - pre.length) (24 * m)) := by
  have hstart := h.of_received (performFrom_received (hpre.take j) miso 0 b)
  rw [List.append_assoc, List.take_append, List.take_append, performFrom_append, performFrom_append]
  refine Block.HasReceived.of_received ?_ (performFrom_received (hpost.take _) miso _ _)
  rcases Nat.le_total j pre.length with hj | hj
  · rw [Nat.sub_eq_zero_of_le hj, List.take_zero, Nat.zero_min]
    exact hstart
  · rw [List.length_take, Nat.min_eq_right hj, Nat.zero_add, List.take_eq_take_min, slotOps_length hm]
    exact performFrom_slotOps_take hstart hm (Nat.min_le_right _ _)

theorem Block.acceptReceive_hasReceived_zero (b : Block) (l : Latch) (miso : Nat → Bool) (i : Nat) :
    (b.acceptReceive l).HasReceived miso i 0 := by
  simp [Block.HasReceived]

/-- The receive buffer over the run of an accepted receiving command whose script has the slots 0 to m-1 and no other
commit. -/
theorem runMicro_acceptReceive (b : Block) {l : Latch} {pre post : List MicroOp} {m : Nat}
    (hscript : script l = pre ++ slotOps m ++ post) (hpre : Quiet pre) (hpost : Quiet post) (hm : m ≤ 8)
    (miso : Nat → Bool) {j : Nat} (hj : j ≤ (script l).length) :
    ∃ c, runMicro miso j (b.acceptReceive l) = some c ∧
      c.HasReceived miso pre.length (min (j - pre.length) (24 * m)) := by
  have hstart := b.acceptReceive_hasReceived_zero l miso pre.length
  have hops := performFrom_take_of_slotOps hstart hpre hpost hm j
  rw [← hscript] at hops
  rcases Nat.lt_or_eq_of_le hj with hlt | heq
  · exact ⟨_, runMicro_of_lt rfl rfl miso hlt, hops⟩
  · cases j with
    | zero => exact ⟨_, rfl, by rwa [Nat.zero_sub, Nat.zero_min]⟩
    | succ j => exact ⟨_, runMicro_of_eq_length rfl rfl miso heq, hops⟩

/-! ### The two receiving commands (R102, R125, R126) -/

theorem exec_recvByte_of_ready {s : State} (hs : s.Ready) :
    exec .recvByte s = .next { s with block := s.block.clearDone.acceptReceive ⟨0x2#4, 0#4, 0#6, 0#8⟩ } := by
  obtain ⟨hbusy, hreleased⟩ := hs
  rw [exec, execRecvByte, State.commandWrite, Block.commandWrite_of_ready _ hbusy hreleased]

theorem exec_readRegs_of_ready {s : State} (a : RegAddr) {n : Nibble} (hs : s.Ready) (hn : n.toNat ≤ 8) :
    exec (.readRegs a n) s = .next { s with block := s.block.clearDone.acceptReceive ⟨0x4#4, n, a, 0#8⟩ } := by
  obtain ⟨hbusy, hreleased⟩ := hs
  have hcount : n ≤ Config.cntMax := hn
  rw [exec, execReadRegs, State.commandWrite, Block.commandWrite_of_ready _ hbusy hreleased, if_pos hcount]

theorem script_recvByte_eq_slotOps : script ⟨0x2#4, 0#4, 0#6, 0#8⟩ = [] ++ slotOps 1 ++ [] := rfl

theorem script_readRegs_eq_slotOps (a : RegAddr) (n : Nibble) :
    script ⟨0x4#4, n, a, 0#8⟩ =
      ([MicroOp.cs false] ++ sendBits (readAddressByte a)) ++ slotOps n.toNat ++ [MicroOp.cs true] := rfl

/-- The run of a READ_REGS: its slots begin at micro-step 25, after the select and the address byte. -/
theorem runMicro_readRegs (b : Block) (a : RegAddr) {n : Nibble} (miso : Nat → Bool) {j : Nat} (hn : n.toNat ≤ 8)
    (hj : j ≤ 26 + 24 * n.toNat) :
    ∃ c, runMicro miso j (b.acceptReceive ⟨0x4#4, n, a, 0#8⟩) = some c ∧
      c.HasReceived miso 25 (min (j - 25) (24 * n.toNat)) := by
  have hquiet := (quiet_cs false).append (quiet_sendBits (readAddressByte a))
  have hlen : j ≤ (script ⟨0x4#4, n, a, 0#8⟩).length := by
    rwa [script_readRegs, readRegsScript_length, Nat.min_eq_left hn]
  exact runMicro_acceptReceive b (script_readRegs_eq_slotOps a n) hquiet (quiet_cs true) hn miso hlen

/-- The run of a RECV_BYTE: its one slot begins at micro-step 0. -/
theorem runMicro_recvByte (b : Block) (miso : Nat → Bool) {j : Nat} (hj : j ≤ 24) :
    ∃ c, runMicro miso j (b.acceptReceive ⟨0x2#4, 0#4, 0#6, 0#8⟩) = some c ∧ c.HasReceived miso 0 j := by
  have hlen : j ≤ (script ⟨0x2#4, 0#4, 0#6, 0#8⟩).length := hj
  have h := runMicro_acceptReceive b script_recvByte_eq_slotOps quiet_nil quiet_nil (by decide) miso hlen
  rwa [List.length_nil, Nat.sub_zero, Nat.min_eq_left hj] at h

/-- Settles O40: both scripts are the receive slots between micro-operations that commit nothing, 25 before them for
READ_REGS and none for RECV_BYTE, which has slot 0 alone. -/
theorem receivedBytesAreCommittedAtTheirEighthSample : Obligations.ReceivedBytesAreCommittedAtTheirEighthSample := by
  constructor
  · intro s t a n miso j hs hn hexec hj
    rw [exec_readRegs_of_ready a hs hn] at hexec
    cases hexec
    obtain ⟨c, hrun, hbuf, hcnt⟩ := runMicro_readRegs s.block.clearDone a miso hn hj
    exact ⟨c, hrun, fun k => (hbuf k).trans (if_congr (by omega) rfl rfl), by omega⟩
  · intro s t miso j hs hexec hj
    rw [exec_recvByte_of_ready hs] at hexec
    cases hexec
    obtain ⟨c, hrun, hbuf, hcnt⟩ := runMicro_recvByte s.block.clearDone miso hj
    refine ⟨c, hrun, fun k => (hbuf k).trans ?_, by rw [hcnt]; split <;> omega⟩
    by_cases hk : k.val = 0
    · simp [hk]
    · rw [if_neg (by omega), if_neg (by omega)]

end Sys2Proof.Machine
end

section
/-! PROOFS. The register sequencer (spec/42_register_sequencer.md R126): the receive slots of READ_REGS. -/

namespace Sys2Proof.Machine

/-- The slots of a receive of at most 8 bytes are the numbers below the count, in order (R126). -/
theorem slots_eq_map_range {n : Nat} (hn : n ≤ 8) : slots n = (List.range n).map (Fin.ofNat 8) := by
  have hall : slots 8 = (List.range 8).map (Fin.ofNat 8) := by decide
  calc slots n = (slots 8).take n := rfl
    _ = (List.range n).map (Fin.ofNat 8) := by
      rw [hall, ← List.map_take, List.take_range, Nat.min_eq_left hn]

/-- Settles O31: the script of a latched READ_REGS, with its slots as the numbers below the count. -/
theorem readRegsScriptTakesTheSlotsInOrder : Obligations.ReadRegsScriptTakesTheSlotsInOrder := by
  rintro ⟨op, cnt, addr, data⟩ hop hcnt
  obtain rfl : op = 0x4#4 := hop
  rw [script_readRegs, readRegsScript, readAddressByte, slots_eq_map_range hcnt, List.flatMap_map]

end Sys2Proof.Machine
end

section
/-! PROOFS. The lines once released (spec/43_lifecycle.md R141): every edge without a reset that finds no command running
on released lines, with a write to CMD and without one. -/

namespace Sys2Proof.Machine

theorem Block.Inv.busy_eq_false_of_released {p : Config.Params} {b : Block} (h : b.Inv p) (hr : b.released = true) :
    b.busy = false := by
  by_contra hbusy
  have howned : b.released = false := h.busyOwned (Bool.eq_true_of_not_eq_false hbusy)
  exact Bool.false_ne_true (howned.symm.trans hr)

/-- An edge with neither a reset nor a write to CMD, while no command runs: only the environment's part. -/
theorem step_of_quiet_idle {s : State} (hbusy : s.block.busy = false) (hr : s.NoResetNext)
    (hw : ∀ w, s.edgeInput ≠ .access (.write .cmd w)) : step s = .next s.passEdge := by
  rw [step_of_quiet hr hw, hbusy, sequenceAfter_idle]

/-- A write of any word to CMD once the lines are released: the refusal RELEASED, with DONE cleared (R141, R152). -/
theorem step_of_write_released {s : State} {w : Word} (hbusy : s.block.busy = false) (hr : s.block.released = true)
    (hw : s.edgeInput = .access (.write .cmd w)) :
    step s = .next { s.passEdge with block := s.block.clearDone.refuse .released } := by
  obtain ⟨k, hk, -⟩ := writeCmd_is_commandWrite w s.passEdge
  have hblock : s.passEdge.block.commandWrite k = s.block.clearDone.refuse .released :=
    Block.commandWrite_of_released k hbusy hr
  rw [step_of_write hw, hk, hbusy, sequenceAfter_idle, State.commandWrite, hblock]

/-- Settles O54: no command runs on released lines, so the edge is either the refusal RELEASED or leaves the block, and
both keep RELEASED. -/
theorem releaseIsFinalUntilReset : Obligations.ReleaseIsFinalUntilReset := by
  intro s hinv hr hnoReset
  have hbusy : s.block.busy = false := Block.Inv.busy_eq_false_of_released hinv hr
  by_cases hwrite : ∃ w, s.edgeInput = .access (.write .cmd w)
  · obtain ⟨w, hw⟩ := hwrite
    exact ⟨_, step_of_write_released hbusy hr hw, hr, pins_of_released hr, fun _ => rfl, fun hno => absurd hw (hno w)⟩
  · have hno : ∀ w, s.edgeInput ≠ .access (.write .cmd w) := not_exists.mp hwrite
    exact ⟨_, step_of_quiet_idle hbusy hnoReset hno, hr, pins_of_released hr, fun h => absurd h hwrite, fun _ => rfl⟩

end Sys2Proof.Machine
end

section
/-! PROOFS. Acceptance, refusal and simultaneous events (spec/60_exceptions.md R150 to R156): what a write to CMD of any
word does to the block, and the sequencer beside a refusal at the same edge. -/

namespace Sys2Proof.Machine

open Sys2Proof.Laws.EncodeFields (fieldsOf)

/-! ### The edge's input and the environment's part of it -/

theorem State.edgeInput_of_port {s : State} {e : EdgeInput} {rest : List EdgeInput} (h : s.port = e :: rest) :
    s.edgeInput = e := by
  simp [State.edgeInput, h]

/-- At a write to CMD the environment's part of the edge is that of an edge with no access. -/
theorem State.passEdge_of_write {s : State} {w : Word} {rest : List EdgeInput}
    (h : s.port = .access (.write .cmd w) :: rest) :
    s.passEdge = { s with rdata := Config.freeRdata s.draws, port := rest, draws := s.draws + 1 } := by
  simp [State.passEdge, State.edgeInput_of_port h, State.rdataAt, State.portAfter, h]

/-- An edge with no access is the sequencer's part alone. -/
theorem step_of_idle (s : State) (rest : List EdgeInput) :
    step { s with port := .idle :: rest } = sequenceAfter s.block.busy
      (.next { s with rdata := Config.freeRdata s.draws, port := rest, draws := s.draws + 1 }) := rfl

/-! ### Acceptance (R151) -/

/-- The block after the acceptance of a command with the fields `l`: a receiving command clears the receive buffer as
well. -/
def Block.acceptCommand (b : Block) (l : Latch) : Block :=
  { acceptedBlock b l with
    rxbuf := if l.op.toNat = 2 ∨ l.op.toNat = 4 then Vector.replicate 8 0 else b.rxbuf
    rxcnt := if l.op.toNat = 2 ∨ l.op.toNat = 4 then 0 else b.rxcnt }

theorem State.commandWrite_of_ready {s : State} (k : Block → Block) (hs : s.Ready) :
    s.commandWrite k = { s with block := k s.block.clearDone } := by
  obtain ⟨hbusy, hreleased⟩ := hs
  rw [State.commandWrite, Block.commandWrite_of_ready k hbusy hreleased]

/-- A command with its count in range is accepted by a block that is ready. -/
theorem exec_of_ready {s : State} {i : Instr} (hs : s.Ready) (hwf : i.WellFormed) :
    exec i s = .next { s with block := s.block.acceptCommand (fieldsOf i) } := by
  cases i with
  | sendByte d => exact congrArg _ (State.commandWrite_of_ready _ hs)
  | recvByte => exact exec_recvByte_of_ready hs
  | writeReg a d => exact congrArg _ (State.commandWrite_of_ready _ hs)
  | readRegs a n =>
    have hn : n.toNat ≤ 8 := of_decide_eq_true hwf
    exact exec_readRegs_of_ready a hs hn
  | release => exact congrArg _ (State.commandWrite_of_ready _ hs)

/-! ### The sequencer beside a refusal (R154, R156) -/

/-- The state with a refusal of its block. -/
def State.refuse (s : State) (r : Reason) : State := { s with block := s.block.refuse r }

theorem Block.advance_keeps_err (b : Block) : b.advance.err = b.err ∧ b.advance.errcode = b.errcode := by
  by_cases hlast : b.upc.toNat + 1 = (script b.latch).length
  · rw [Block.advance_of_last hlast]
    exact ⟨rfl, rfl⟩
  · rw [Block.advance_of_not_last hlast]
    exact ⟨rfl, rfl⟩

theorem State.microStep_of_due {s : State} {op : MicroOp} (h : s.block.dueOp = some op) :
    s.microStep = .next { s with
      block := { (perform op s.misoLevel s.block).advance with tick := 0 }
      misoIn := s.misoAfter op } := by
  simp [State.microStep, h]

/-- The sequencer leaves `h_rdata`, ERR and ERRCODE to the host's part of the edge. -/
theorem State.sequence_keeps {s t : State} (h : s.sequence = .next t) :
    t.rdata = s.rdata ∧ t.block.err = s.block.err ∧ t.block.errcode = s.block.errcode := by
  by_cases hlast : s.block.tick = s.params.lastTick
  · rw [State.sequence_of_last hlast] at h
    obtain ⟨-, hfault⟩ | ⟨op, -, hnext⟩ := s.microStep_cases
    · cases h.symm.trans hfault
    · cases h.symm.trans hnext
      obtain ⟨-, -, herr, hcode, -⟩ := perform_keeps op s.misoLevel s.block
      obtain ⟨herr', hcode'⟩ := (perform op s.misoLevel s.block).advance_keeps_err
      exact ⟨rfl, herr'.trans herr, hcode'.trans hcode⟩
  · rw [State.sequence_of_not_last hlast] at h
    cases h
    exact ⟨rfl, rfl, rfl⟩

/-- The sequencer beside a refusal does what it would have done, and the refusal stands. -/
theorem State.sequence_refuse {s u : State} (r : Reason) (h : s.sequence = .next u) :
    (s.refuse r).sequence = .next (u.refuse r) := by
  by_cases hlast : s.block.tick = s.params.lastTick
  · rw [State.sequence_of_last hlast] at h
    obtain ⟨-, hfault⟩ | ⟨op, hdue, hnext⟩ := s.microStep_cases
    · cases h.symm.trans hfault
    · cases h.symm.trans hnext
      have hdue' : (s.refuse r).block.dueOp = some op := hdue
      have hblock : (perform op (s.refuse r).misoLevel (s.refuse r).block).advance = _ :=
        refuse_then_advance s.block r op s.misoLevel
      have hlast' : (s.refuse r).block.tick = (s.refuse r).params.lastTick := hlast
      rw [State.sequence_of_last hlast', State.microStep_of_due hdue', hblock]
      rfl
  · rw [State.sequence_of_not_last hlast] at h
    cases h
    exact State.sequence_of_not_last hlast

/-! ### A write to CMD at its edge, check by check (R151, R152) -/

/-- While a command runs: the sequencer's part of the edge beside the refusal BUSY. -/
theorem step_of_write_busy {s : State} {w : Word} (hbusy : s.block.busy = true)
    (hin : s.edgeInput = .access (.write .cmd w)) : step s = (s.passEdge.refuse .busy).sequence := by
  obtain ⟨k, hk, -⟩ := writeCmd_is_commandWrite w s.passEdge
  have hblock : s.passEdge.block.commandWrite k = s.block.refuse .busy := Block.commandWrite_of_busy k hbusy
  rw [step_of_write hin, hk, hbusy, sequenceAfter_busy, State.commandWrite, hblock]
  rfl

/-- While no command runs: nothing but the block changes beside the environment's part of the edge. -/
theorem step_of_write_idle {s : State} {w : Word} (hbusy : s.block.busy = false)
    (hin : s.edgeInput = .access (.write .cmd w)) : ∃ b, step s = .next { s.passEdge with block := b } := by
  obtain ⟨k, hk, -⟩ := writeCmd_is_commandWrite w s.passEdge
  exact ⟨_, by rw [step_of_write hin, hk, hbusy, sequenceAfter_idle, State.commandWrite]⟩

/-- In a ready state: the word decides, and DONE is cleared first. -/
theorem step_of_write_ready {s : State} {w : Word} {k : Block → Block} (hs : s.Ready)
    (hin : s.edgeInput = .access (.write .cmd w)) (hk : writeCmd w s.passEdge = .next (s.passEdge.commandWrite k)) :
    step s = .next { s.passEdge with block := k s.block.clearDone } := by
  rw [step_of_write hin, hk, hs.1, sequenceAfter_idle, State.commandWrite_of_ready (s := s.passEdge) k hs]
  rfl

theorem step_of_write_illegal {s : State} {w : Word} (hs : s.Ready) (hin : s.edgeInput = .access (.write .cmd w))
    (hw : decode w = .illegal) : step s = .next { s.passEdge with block := s.block.clearDone.refuse .illegal } :=
  step_of_write_ready (k := fun b => b.refuse .illegal) hs hin (by rw [writeCmd, hw])

theorem step_of_write_badCount {s : State} {w : Word} (hs : s.Ready) (hin : s.edgeInput = .access (.write .cmd w))
    (hw : decode w = .badCount) : step s = .next { s.passEdge with block := s.block.clearDone.refuse .count } :=
  step_of_write_ready (k := fun b => b.refuse .count) hs hin (by rw [writeCmd, hw])

/-- The accepted word latches its own fields, which are those of the command (R32). -/
theorem step_of_write_accepted {s : State} {w : Word} {i : Instr} (hs : s.Ready)
    (hin : s.edgeInput = .access (.write .cmd w)) (hw : decode w = .cmd i) :
    step s = .next { s.passEdge with block := s.block.acceptCommand (latchOfWord w) } := by
  obtain ⟨hwf, -, hlatch⟩ := fields_of_decode hw
  have hexec : writeCmd w s.passEdge = .next { s.passEdge with block := s.block.acceptCommand (fieldsOf i) } := by
    rw [writeCmd, hw]
    exact exec_of_ready (s := s.passEdge) hs hwf
  rw [step_of_write hin, hexec, hs.1, sequenceAfter_idle, hlatch]

/-- While no command runs, a refused write reports the first reason that applies (R152). -/
theorem step_of_write_refused {s : State} {w : Word} (hbusy : s.block.busy = false)
    (hin : s.edgeInput = .access (.write .cmd w))
    (href : s.block.released = true ∨ decode w = .illegal ∨ decode w = .badCount) :
    ∃ r : Reason, step s = .next { s.passEdge with block := s.block.clearDone.refuse r } ∧
      r.code = if s.block.released then 4 else if decode w = .illegal then 1 else 2 := by
  cases hr : s.block.released with
  | true => exact ⟨_, step_of_write_released hbusy hr hin, rfl⟩
  | false =>
    have hword : decode w = .illegal ∨ decode w = .badCount := by simpa [hr] using href
    obtain hw | hw := hword
    · exact ⟨_, step_of_write_illegal ⟨hbusy, hr⟩ hin hw, by simp [Reason.code, hw]⟩
    · exact ⟨_, step_of_write_badCount ⟨hbusy, hr⟩ hin hw, by simp [Reason.code, hw]⟩

/-! ### Accept(w) and its refusals (R150 to R152) -/

/-- Settles O22: a running command goes on beside the refusal BUSY; while none runs, each check of Accept(w) in its
order has its own lemma, and all of them leave the rest of the state to the environment. -/
theorem commandWriteFollowsTheAcceptProcedure : Obligations.CommandWriteFollowsTheAcceptProcedure := by
  intro s w rest hport
  have hin := State.edgeInput_of_port hport
  refine ⟨fun hbusy t hstep => ?_, fun hbusy htick => ?_, fun hbusy => ?_⟩
  · rw [step_of_write_busy hbusy hin] at hstep
    exact (State.sequence_keeps hstep).2
  · have hnotLast : s.block.tick ≠ s.params.lastTick := fun h => htick (congrArg (· + 1) h)
    exact ⟨_, (step_of_write_busy hbusy hin).trans (State.sequence_of_not_last hnotLast), rfl⟩
  · obtain ⟨b, hstep⟩ := step_of_write_idle hbusy hin
    have hrest : s.portAfter = rest := congrArg State.port (State.passEdge_of_write hport)
    have hblock {b'} (h : step s = .next { s.passEdge with block := b' }) : b = b' :=
      congrArg State.block (Host.Outcome.next.inj (hstep.symm.trans h))
    refine ⟨_, hstep, rfl, rfl, hrest, fun hr => ?_, fun hr => ⟨fun hw => ?_, fun hw => ?_, fun i hw => ?_⟩⟩
    · exact hblock (step_of_write_released hbusy hr hin)
    · exact hblock (step_of_write_illegal ⟨hbusy, hr⟩ hin hw)
    · exact hblock (step_of_write_badCount ⟨hbusy, hr⟩ hin hw)
    · exact hblock (step_of_write_accepted ⟨hbusy, hr⟩ hin hw)

/-- Settles O23: with no access, the edge is the sequencer's part on the same state. A running command goes on beside
the refusal BUSY; while none runs, the edge is the refusal with the first reason. -/
theorem refusalsReportTheFirstReasonAndChangeNothingElse :
    Obligations.RefusalsReportTheFirstReasonAndChangeNothingElse := by
  intro s u w rest hport href hidle
  have hin := State.edgeInput_of_port hport
  rw [step_of_idle, ← State.passEdge_of_write hport] at hidle
  refine ⟨u.rdata, ?_⟩
  cases hbusy : s.block.busy with
  | true =>
    rw [hbusy, sequenceAfter_busy] at hidle
    rw [step_of_write_busy hbusy hin, State.sequence_refuse .busy hidle]
    rfl
  | false =>
    rw [hbusy, sequenceAfter_idle] at hidle
    cases hidle
    obtain ⟨r, hstep, hcode⟩ := step_of_write_refused hbusy hin (by simpa [hbusy] using href)
    rw [hstep]
    simp [Block.refuse, Block.clearDone, hcode, hbusy]

/-! ### Simultaneous events (R156) -/

/-- A write to CMD at the edge of the last micro-step: the micro-step that completes the command, with the refusal. -/
theorem step_of_write_last {s : State} {w : Word} (hin : s.edgeInput = .access (.write .cmd w))
    (hbusy : s.block.busy = true) (htick : s.block.tick = s.params.lastTick)
    (hupc : s.block.upc.toNat + 1 = (script s.block.latch).length) :
    ∃ t b m, step s = .next t ∧ s.block.microStep m = some b ∧ t.block = b.refuse .busy ∧
      b.busy = false ∧ b.done = true := by
  have hdue : s.block.dueOp.isSome = true := (Block.dueOp_isSome_iff s.block).mpr (by omega)
  obtain ⟨op, hop⟩ := Option.isSome_iff_exists.mp hdue
  have hseq := (State.sequence_of_last (s := s.passEdge) htick).trans (State.microStep_of_due hop)
  refine ⟨_, _, _, (step_of_write_busy hbusy hin).trans (State.sequence_refuse .busy hseq),
    Block.microStep_of_due hop _, rfl, ?_⟩
  rw [perform_advance_of_last hupc]
  exact ⟨rfl, rfl⟩

theorem sequenceAfter_rdata {busy : Bool} {s t : State} (h : sequenceAfter busy (.next s) = .next t) :
    t.rdata = s.rdata := by
  cases busy with
  | false =>
    cases h
    rfl
  | true => exact (State.sequence_keeps h).1

/-- Settles O24: the reset edge by its own lemma, the write at the last micro-step by its own, and `h_rdata` is
set in the environment's part of the edge, which the sequencer keeps. -/
theorem simultaneousEventsAtOneEdge : Obligations.SimultaneousEventsAtOneEdge := by
  refine ⟨fun s a hin => ⟨_, step_of_rst hin, rfl, rfl⟩, fun s w hin hbusy htick hupc => ?_,
    fun s t r hin hstep => ?_⟩
  · obtain ⟨t, b, m, hstep, hmicro, hblock, hidle, hdone⟩ :=
      step_of_write_last hin hbusy (Nat.succ.inj htick) hupc
    exact ⟨t, b, m, hstep, hmicro, hblock, by rw [hblock]; exact ⟨hidle, hdone, rfl, rfl⟩⟩
  · rw [step_of_quiet (by simp [hin]) (by simp [hin])] at hstep
    rw [sequenceAfter_rdata hstep, State.passEdge_rdata, hin, State.rdataAt]

end Sys2Proof.Machine
end

section
/-! PROOFS. The host's use of the bytes (spec/60_exceptions.md R174, R175): the ADC code and the fault of a status
byte. -/

namespace Sys2Proof.Machine

/-- Settles O46: the two bytes side by side are a number of 16 bits, and the code is all of it but bit 0. -/
theorem adcCodeDropsTheStatusBit : Obligations.AdcCodeDropsTheStatusBit := by
  intro b
  have hlsb := b.rxbuf[2].isLt
  have hmsb := b.rxbuf[1].isLt
  rw [Attached.adcCode, BitVec.extractLsb'_toNat, BitVec.toNat_append, ← Nat.shiftLeft_add_eq_or_of_lt hlsb,
    Nat.shiftLeft_eq, Nat.shiftRight_eq_div_pow]
  omega

/-- A masked bit is not 0 exactly when it is set. -/
theorem and_twoPow_ne_zero_iff {n : Nat} (v : BitVec n) {i : Nat} (hi : i < n) :
    v &&& BitVec.twoPow n i ≠ 0 ↔ v.getLsbD i = true := by
  have hbit : BitVec.twoPow n i ≠ 0#n := fun h => by simpa [hi] using congrArg (BitVec.getLsbD · i) h
  rw [BitVec.and_twoPow]
  cases v.getLsbD i with
  | false => simp
  | true => simpa using hbit

/-- Settles O47: the three masks are 2 to the power of the bit's number. -/
theorem firstSetFaultBitIsReported : Obligations.FirstSetFaultBitIsReported := by
  intro status
  have h7 : status &&& 0x80#8 ≠ 0 ↔ _ := and_twoPow_ne_zero_iff status (i := 7) (by decide)
  have h6 : status &&& 0x40#8 ≠ 0 ↔ _ := and_twoPow_ne_zero_iff status (i := 6) (by decide)
  have h2 : status &&& 0x04#8 ≠ 0 ↔ _ := and_twoPow_ne_zero_iff status (i := 2) (by decide)
  simp only [Attached.faultOf, h7, h6, h2]

end Sys2Proof.Machine
end

section
/-! PROOFS. The reset edge (spec/70_reset_and_hazards.md R180): what it leaves of the port and on the pins. -/

namespace Sys2Proof.Machine

/-- A reset edge uses up its own entry of the port and no other, whatever access is presented with it. -/
theorem State.portAfter_of_rst {s : State} {presented : Option Access} {rest : List EdgeInput}
    (h : s.port = .rst presented :: rest) : s.portAfter = rest := by
  simp [State.portAfter, h]

theorem pins_reset : pins Block.reset = ⟨.high, .low, .low⟩ := pins_of_owned rfl

/-- Settles O9: a reset edge has one outcome whatever the block was doing, so only the port it leaves and the pins of
`Block.reset` say more than the definition of that outcome. -/
theorem resetEdgeWinsOverEverything : Obligations.ResetEdgeWinsOverEverything := by
  intro s presented rest hport
  have hstep : step s = .next s.passEdge.resetEdge := step_of_rst (State.edgeInput_of_port hport)
  have hrest : s.passEdge.resetEdge.port = rest := State.portAfter_of_rst hport
  exact ⟨_, hstep, rfl, rfl, rfl, pins_reset, rfl, rfl, hrest⟩

end Sys2Proof.Machine
end

section
/-! PROOFS. The encoder, the words that decode to no command, and the assembler (spec/30_encoding.md R70 to R81). -/

namespace Sys2Proof.Machine

open Sys2Proof.Laws.EncodeFields (fieldsOf)

/-! ### Encoder and decoder (R77, R80) -/

/-- The fields of every command's word are the command's own, and its reserved field is 0. -/
theorem encode_fields (i : Instr) : latchOfWord (encode i) = fieldsOf i ∧ rsvField (encode i) = 0 := by
  cases i with
  | sendByte d => exact Laws.EncodeFields.sendByte d
  | recvByte => exact Laws.EncodeFields.recvByte
  | writeReg a d => exact Laws.EncodeFields.writeReg a d
  | readRegs a n => exact Laws.EncodeFields.readRegs a n
  | release => exact Laws.EncodeFields.release

/-- Settles O1: the word of a command has the command's fields, and the decoder reads nothing else. -/
theorem decodeOfEncodeIsTheCommand : Obligations.DecodeOfEncodeIsTheCommand := by
  intro i hwf
  obtain ⟨hlatch, hrsv⟩ := encode_fields i
  exact decode_of_fields hwf hrsv hlatch

/-- Settles O2: a decoded word has the fields of its command, as the encoding of the command has, and a word is its
fields. -/
theorem encodeOfDecodeIsTheWord : Obligations.EncodeOfDecodeIsTheWord := by
  intro w i hdec
  obtain ⟨hwf, hrsv, hlatch⟩ := fields_of_decode hdec
  obtain ⟨hlatch', hrsv'⟩ := encode_fields i
  exact ⟨hwf, word_eq_iff_fields.mpr ⟨hrsv'.trans hrsv.symm, hlatch'.trans hlatch.symm⟩⟩

/-- Settles O6: each word is the encoding of its command. -/
theorem workedEncodingsDecode : Obligations.WorkedEncodingsDecode :=
  have h (i : Instr) (hwf : i.WellFormed) : decode (encode i) = .cmd i := decodeOfEncodeIsTheCommand i hwf
  ⟨h (.writeReg 0 0xB2) rfl, h (.readRegs 0 8) rfl, h (.sendByte 0xA5) rfl, h .recvByte rfl, h .release rfl,
    h (.writeReg 63 0xFF) rfl⟩

/-! ### Words that decode to no command (R75, R76) -/

theorem ite_cmd_ne_badCount {c : Prop} [Decidable c] {i : Instr} :
    (if c then Decoded.cmd i else .illegal) ≠ .badCount := by
  split <;> simp

theorem not_le_cntMax_iff {n : Nibble} : ¬ n ≤ Config.cntMax ↔ 9 ≤ n.toNat := Nat.not_le

theorem ite_eq_badCount_iff {c d : Prop} [Decidable c] [Decidable d] {i : Instr} :
    (if c then (if d then Decoded.cmd i else .badCount) else .illegal) = .badCount ↔ c ∧ ¬ d := by
  by_cases hc : c <;> by_cases hd : d <;> simp [hc, hd]

theorem reserved_of_ne {n : Nat} (h1 : n ≠ 1) (h2 : n ≠ 2) (h3 : n ≠ 3) (h4 : n ≠ 4) (h5 : n ≠ 5) :
    n = 0 ∨ 6 ≤ n := by
  omega

/-- Settles O4: along the decoder's branches, the checks that a word of each opcode can fail are its must-be-zero
fields. -/
theorem illegalWordsAreReservedOrNonzero : Obligations.IllegalWordsAreReservedOrNonzero := by
  intro w
  unfold decode
  split
  next hop => simp [hop, imp_iff_not_or, or_left_comm]
  next hop => simp [hop, belowOp_eq_zero_iff, imp_iff_not_or, or_left_comm]
  next hop => simp [hop, imp_iff_not_or, or_comm]
  next hop =>
    have hcount : (if cntField w ≤ Config.cntMax then Decoded.cmd (.readRegs (addrField w) (cntField w))
        else .badCount) ≠ .illegal := by split <;> simp
    simp [hop, hcount, imp_iff_not_or]
  next hop => simp [hop, belowOp_eq_zero_iff, imp_iff_not_or, or_left_comm]
  next h1 h2 h3 h4 h5 =>
    exact iff_of_true rfl (.inl (reserved_of_ne h1 h2 h3 h4 h5))

/-- Settles O5: only the READ_REGS branch of the decoder reports a bad count, past its must-be-zero fields. -/
theorem badCountWordsAreLongReads : Obligations.BadCountWordsAreLongReads := by
  intro w
  unfold decode
  split
  next hop => simp [hop, ite_cmd_ne_badCount]
  next hop => simp [hop, ite_cmd_ne_badCount]
  next hop => simp [hop, ite_cmd_ne_badCount]
  next hop =>
    rw [ite_eq_badCount_iff, not_le_cntMax_iff, and_assoc]
    exact (and_iff_right hop).symm
  next hop => simp [hop, ite_cmd_ne_badCount]
  next h4 _ => exact iff_of_false (by simp) (fun ⟨hop, _⟩ => h4 hop)

/-! ### Assembler (R78, R80) -/

/-- A word's number is the sum of its fields at their places. -/
theorem word_toNat (w : Word) :
    w.toNat = (opField w).toNat * 2 ^ 28 + (cntField w).toNat * 2 ^ 24 + (rsvField w).toNat * 2 ^ 14 +
      (addrField w).toNat * 2 ^ 8 + (dataField w).toNat := by
  simp only [opField, cntField, rsvField, addrField, dataField, BitVec.extractLsb'_toNat, Nat.shiftRight_eq_div_pow]
  have := w.isLt
  omega

/-- The number of a command's word, from its operands. -/
theorem encode_toNat (i : Instr) :
    (encode i).toNat = (fieldsOf i).op.toNat * 2 ^ 28 + (fieldsOf i).cnt.toNat * 2 ^ 24 +
      (fieldsOf i).addr.toNat * 2 ^ 8 + (fieldsOf i).data.toNat := by
  obtain ⟨hlatch, hrsv⟩ := encode_fields i
  rw [word_toNat, hrsv, ← hlatch]
  simp [latchOfWord]

/-- Settles O7: an operand in range is its own remainder, so its field of the encoded word is the operand itself. -/
theorem assemblerRefusesOperandsOutOfRange : Obligations.AssemblerRefusesOperandsOutOfRange := by
  refine ⟨fun d hd => ?_, fun d hd => ?_, fun a d ha hd => ?_, fun a d h => ?_, fun a n ha hn => ?_, fun a n h => ?_,
    fun a => ?_, rfl, rfl, rfl⟩
  · exact ⟨_, if_pos hd, by rw [encode_toNat]; simp [fieldsOf]; omega⟩
  · exact if_neg (by omega)
  · exact ⟨_, if_pos ⟨ha, hd⟩, by rw [encode_toNat]; simp [fieldsOf]; omega⟩
  · exact if_neg (by omega)
  · exact ⟨_, if_pos ⟨ha, hn⟩, by rw [encode_toNat]; simp [fieldsOf]; omega⟩
  · exact if_neg (by omega)
  · simp [assemble]

end Sys2Proof.Machine
end

section
/-! PROOFS. The scripts (spec/40_line_ops.md R91, spec/42_register_sequencer.md R126, R127): their shapes, and the order
their CLKs and byte-completing SAMPLEs stand in. -/

namespace Sys2Proof.Machine

/-! ### Shapes of the scripts (R91) -/

/-- A micro-operation that moves no line but SCLK and MOSI, and reads MISO: all that stand in a script beside its
select operations and REL. -/
def MicroOp.isData : MicroOp → Bool
  | .cs _ => false
  | .clk _ => true
  | .dout _ => true
  | .sample _ _ => true
  | .rel => false

/-- Only clock, data-out and sample operations. -/
def DataOps (ops : List MicroOp) : Prop := ∀ op ∈ ops, op.isData = true

theorem DataOps.append {ops ops' : List MicroOp} (h : DataOps ops) (h' : DataOps ops') : DataOps (ops ++ ops') :=
  fun op hop => (List.mem_append.mp hop).elim (h op) (h' op)

theorem dataOps_sendBits (v : Byte) : DataOps (sendBits v) := by
  simp [DataOps, sendBits, wireBits, sendBit, MicroOp.isData]

theorem dataOps_slotOps (n : Nat) : DataOps (slotOps n) := by
  simp only [DataOps, slotOps, List.mem_flatMap]
  rintro op ⟨k, -, hop⟩
  have hrecv : DataOps (recvBits k) := by simp [DataOps, recvBits, recvBit, MicroOp.isData]
  exact hrecv op hop

theorem recvByteScript_eq_slotOps : recvByteScript = slotOps 1 := by
  simp [recvByteScript, slotOps, slots]

theorem writeRegScript_eq_frame (a : RegAddr) (d : Byte) :
    writeRegScript a d = [.cs false] ++ (sendBits (writeAddressByte a) ++ sendBits d) ++ [.cs true] := by
  simp [writeRegScript]

theorem readRegsScript_eq_frame (a : RegAddr) (n : Nibble) :
    readRegsScript a n = [.cs false] ++ (sendBits (readAddressByte a) ++ slotOps n.toNat) ++ [.cs true] := by
  simp [readRegsScript, slotOps]

/-- The shapes of the scripts, by LOP: a register command frames its data operations in one select assertion (R130),
RELEASE is one REL, and the others are data operations alone. -/
theorem script_shape (l : Latch) :
    (l.op ≠ 0x3#4 ∧ l.op ≠ 0x4#4 ∧ l.op ≠ 0x5#4 ∧ DataOps (script l)) ∨
    ((l.op = 0x3#4 ∨ l.op = 0x4#4) ∧ ∃ body, DataOps body ∧ script l = [.cs false] ++ body ++ [.cs true]) ∨
    (l.op = 0x5#4 ∧ script l = [.rel]) := by
  have hne {x y : Nibble} {n : Nat} (hx : x.toNat = n) (hy : y.toNat ≠ n) : x ≠ y := fun h => hy (h ▸ hx)
  unfold script
  split
  next hop => exact .inl ⟨hne hop (by decide), hne hop (by decide), hne hop (by decide), dataOps_sendBits _⟩
  next hop =>
    refine .inl ⟨hne hop (by decide), hne hop (by decide), hne hop (by decide), ?_⟩
    rw [recvByteScript_eq_slotOps]
    exact dataOps_slotOps 1
  next hop =>
    exact .inr (.inl ⟨.inl (BitVec.eq_of_toNat_eq hop), _, (dataOps_sendBits _).append (dataOps_sendBits _),
      writeRegScript_eq_frame _ _⟩)
  next hop =>
    exact .inr (.inl ⟨.inr (BitVec.eq_of_toNat_eq hop), _, (dataOps_sendBits _).append (dataOps_slotOps _),
      readRegsScript_eq_frame _ _⟩)
  next hop => exact .inr (.inr ⟨BitVec.eq_of_toNat_eq hop, rfl⟩)
  next h3 h4 h5 =>
    exact .inl ⟨fun h => h3 (congrArg BitVec.toNat h), fun h => h4 (congrArg BitVec.toNat h),
      fun h => h5 (congrArg BitVec.toNat h), List.forall_mem_nil _⟩

/-- REL is the one micro-operation of RELEASE and stands in no other script (R140). -/
theorem script_eq_of_rel_mem {l : Latch} (h : MicroOp.rel ∈ script l) : l.op = 0x5#4 ∧ script l = [.rel] := by
  obtain ⟨-, -, -, hdata⟩ | ⟨-, body, hdata, hscript⟩ | hrel := script_shape l
  · exact absurd (hdata _ h) (by decide)
  · rw [hscript] at h
    have hbody : MicroOp.rel ∈ body := by simpa using h
    exact absurd (hdata _ hbody) (by decide)
  · exact hrel

theorem sample_not_mem_sendBits (k : Fin 8) (last : Bool) (v : Byte) : MicroOp.sample k last ∉ sendBits v := by
  simp [sendBits, wireBits, sendBit]

/-- Only the scripts of the receiving commands sample. -/
theorem op_of_sample_mem {l : Latch} {k : Fin 8} {last : Bool} (h : MicroOp.sample k last ∈ script l) :
    l.op = 0x2#4 ∨ l.op = 0x4#4 := by
  unfold script at h
  split at h
  next => exact absurd h (sample_not_mem_sendBits k last _)
  next hop => exact .inl (BitVec.eq_of_toNat_eq hop)
  next => simp [writeRegScript_eq_frame, sample_not_mem_sendBits] at h
  next hop => exact .inr (BitVec.eq_of_toNat_eq hop)
  next => simp [releaseScript] at h
  next => cases h

/-! ### The lines and the bytes over a script -/

theorem linesAfter_append (ops ops' : List MicroOp) :
    linesAfter (ops ++ ops') = ops'.foldl lineStep (linesAfter ops) := by
  simp [linesAfter]

theorem foldl_lineStep_sendBits (v : Byte) (lines : Bool × Bool) :
    (sendBits v).foldl lineStep lines = (lines.1, false) := by
  simp [sendBits, wireBits, sendBit, lineStep]

theorem foldl_lineStep_recvBits (k : Fin 8) (lines : Bool × Bool) :
    (recvBits k).foldl lineStep lines = (lines.1, false) := by
  simp [recvBits, recvBit, lineStep]

theorem bytesCommitted_recvBits (k : Fin 8) : bytesCommitted (recvBits k) = 1 := by
  simp [bytesCommitted, recvBits, recvBit, List.filter_cons, MicroOp.commits]

theorem bytesCommitted_of_quiet {ops : List MicroOp} (h : Quiet ops) : bytesCommitted ops = 0 := by
  simpa [bytesCommitted, Quiet] using h

theorem slotOps_eq_min (n : Nat) : slotOps n = slotOps (min n 8) := by
  rw [slotOps, slotOps, slots, slots, List.take_eq_take_min, List.length_cons]
  rfl

/-- Receiving some bytes from a low clock leaves it low. -/
theorem foldl_lineStep_slotOps {m : Nat} (hm : m ≤ 8) (c : Bool) :
    (slotOps m).foldl lineStep (c, false) = (c, false) := by
  induction m with
  | zero => rfl
  | succ m ih =>
    rw [slotOps_succ ⟨m, hm⟩, List.foldl_append, ih (Nat.le_of_succ_le hm), foldl_lineStep_recvBits]

theorem bytesCommitted_slotOps {m : Nat} (hm : m ≤ 8) : bytesCommitted (slotOps m) = m := by
  induction m with
  | zero => rfl
  | succ m ih =>
    rw [slotOps_succ ⟨m, hm⟩, bytesCommitted_append, ih (Nat.le_of_succ_le hm), bytesCommitted_recvBits]

/-- A whole script ends with idle lines (R40, R101, R130). -/
theorem linesAfter_script (l : Latch) : linesAfter (script l) = (true, false) := by
  unfold script
  split
  · exact foldl_lineStep_sendBits _ _
  · rw [recvByteScript_eq_slotOps]
    exact foldl_lineStep_slotOps (by decide) true
  · simp [writeRegScript_eq_frame, linesAfter, foldl_lineStep_sendBits, lineStep]
  · rw [readRegsScript_eq_frame, slotOps_eq_min]
    simp [linesAfter, foldl_lineStep_sendBits, foldl_lineStep_slotOps, lineStep]
  · rfl
  · rfl

/-! ### The order of a script's operations (R93, R104) -/

/-- A micro-operation fits behind those before it: a CLK changes the clock line, and a SAMPLE that completes a byte is
that of the next receive slot. -/
def MicroOp.Fits (before : List MicroOp) : MicroOp → Prop
  | .cs _ => True
  | .clk v => (linesAfter before).2 = !v
  | .dout _ => True
  | .sample k last => last = true → k.val = bytesCommitted before
  | .rel => True

/-- Every one of some micro-operations fits behind those before it. -/
def OrderedAfter (before : List MicroOp) : List MicroOp → Prop
  | [] => True
  | op :: ops => op.Fits before ∧ OrderedAfter (before ++ [op]) ops

theorem orderedAfter_append {before ops ops' : List MicroOp} :
    OrderedAfter before (ops ++ ops') ↔ OrderedAfter before ops ∧ OrderedAfter (before ++ ops) ops' := by
  induction ops generalizing before with
  | nil => simp [OrderedAfter]
  | cons op ops ih => simp [OrderedAfter, ih, and_assoc]

theorem OrderedAfter.fits_getElem? {before ops : List MicroOp} {op : MicroOp} {j : Nat} (h : OrderedAfter before ops)
    (hop : ops[j]? = some op) : op.Fits (before ++ ops.take j) := by
  obtain ⟨hj, rfl⟩ := List.getElem?_eq_some_iff.mp hop
  rw [← List.take_append_drop j ops, orderedAfter_append, List.drop_eq_getElem_cons hj] at h
  exact h.2.1

theorem orderedAfter_sendBits {before : List MicroOp} (hlow : (linesAfter before).2 = false) (v : Byte) :
    OrderedAfter before (sendBits v) := by
  simp [OrderedAfter, sendBits, wireBits, sendBit, MicroOp.Fits, linesAfter_append, lineStep, hlow]

theorem orderedAfter_recvBits {before : List MicroOp} {k : Fin 8} (hlow : (linesAfter before).2 = false)
    (hk : k.val = bytesCommitted before) : OrderedAfter before (recvBits k) := by
  have hquiet : bytesCommitted ((recvBits k).take 22) = 0 := bytesCommitted_of_quiet (quiet_recvBits_take (by decide))
  simp [OrderedAfter, recvBits, recvBit, MicroOp.Fits, linesAfter_append, lineStep, bytesCommitted_append, hlow, hk]
  exact hquiet

theorem orderedAfter_slotOps {before : List MicroOp} (hlow : (linesAfter before).2 = false)
    (hbytes : bytesCommitted before = 0) {m : Nat} (hm : m ≤ 8) : OrderedAfter before (slotOps m) := by
  induction m with
  | zero => trivial
  | succ m ih =>
    have hm' := Nat.le_of_succ_le hm
    rw [slotOps_succ ⟨m, hm⟩, orderedAfter_append]
    refine ⟨ih hm', orderedAfter_recvBits ?_ ?_⟩
    · rw [linesAfter_append, ← Prod.mk.eta (p := linesAfter before), hlow, foldl_lineStep_slotOps hm']
    · rw [bytesCommitted_append, hbytes, bytesCommitted_slotOps hm', Nat.zero_add]

/-- Every script is in order. -/
theorem orderedAfter_script (l : Latch) : OrderedAfter [] (script l) := by
  unfold script
  split
  · exact orderedAfter_sendBits rfl _
  · rw [recvByteScript_eq_slotOps]
    exact orderedAfter_slotOps rfl rfl (by decide)
  · rw [writeRegScript_eq_frame]
    simp only [orderedAfter_append]
    exact ⟨⟨⟨trivial, trivial⟩, orderedAfter_sendBits rfl _, orderedAfter_sendBits rfl _⟩, trivial, trivial⟩
  · rw [readRegsScript_eq_frame, slotOps_eq_min]
    simp only [orderedAfter_append]
    exact ⟨⟨⟨trivial, trivial⟩, orderedAfter_sendBits rfl _, orderedAfter_slotOps rfl rfl (Nat.min_le_right _ _)⟩,
      trivial, trivial⟩
  · exact ⟨trivial, trivial⟩
  · trivial

/-- The due micro-operation fits behind those that have been performed. -/
theorem Block.fits_of_due {b : Block} {op : MicroOp} (h : b.dueOp = some op) : op.Fits b.performed :=
  (orderedAfter_script b.latch).fits_getElem? h

end Sys2Proof.Machine
end

section
/-! PROOFS. The invariant (spec/10_state.md R26 to R40): what a clock edge does, said once, and what each of its effects
keeps. -/

namespace Sys2Proof.Machine

open Sys2Proof.Laws.EncodeFields (fieldsOf)

/-! ### What a clock edge does (R35, R151, R156) -/

/-- The host's part of an edge at which a command runs: nothing, or the refusal BUSY of a write to CMD. -/
def State.BusyHost (s : State) (b : Block) : Prop :=
  ((∀ w, s.edgeInput ≠ .access (.write .cmd w)) ∧ b = s.block) ∨
    (∃ w, s.edgeInput = .access (.write .cmd w)) ∧ b = s.block.refuse .busy

/-- Everything a clock edge can do to a state. -/
inductive State.Edge (s : State) : State → Prop
  /-- The reset wins (R156, R180). -/
  | reset {a : Option Access} (hin : s.edgeInput = .rst a) : s.Edge s.passEdge.resetEdge
  /-- No command runs and none is written. -/
  | idle (hr : s.NoResetNext) (hw : ∀ w, s.edgeInput ≠ .access (.write .cmd w)) (hbusy : s.block.busy = false) :
      s.Edge s.passEdge
  /-- A write to CMD is refused while no command runs (R152). -/
  | refused {w : Word} (r : Reason) (hin : s.edgeInput = .access (.write .cmd w)) (hbusy : s.block.busy = false) :
      s.Edge { s.passEdge with block := s.block.clearDone.refuse r }
  /-- A command is accepted (R151). -/
  | accepted {w : Word} {i : Instr} (hin : s.edgeInput = .access (.write .cmd w)) (hs : s.Ready)
      (hw : decode w = .cmd i) : s.Edge { s.passEdge with block := s.block.acceptCommand (fieldsOf i) }
  /-- A cycle of a running command's micro-step that is not its last (R35). -/
  | tick {b : Block} (hr : s.NoResetNext) (hbusy : s.block.busy = true) (hhost : s.BusyHost b)
      (htick : s.block.tick ≠ s.params.lastTick) : s.Edge { s.passEdge with block := { b with tick := b.tick + 1 } }
  /-- A micro-step of a running command (R97). -/
  | micro {b : Block} {op : MicroOp} (hr : s.NoResetNext) (hbusy : s.block.busy = true) (hhost : s.BusyHost b)
      (htick : s.block.tick = s.params.lastTick) (hdue : b.dueOp = some op) :
      s.Edge { s.passEdge with
        block := { (perform op s.passEdge.misoLevel b).advance with tick := 0 }
        misoIn := s.passEdge.misoAfter op }

theorem State.BusyHost.keeps {s : State} {b : Block} (h : s.BusyHost b) :
    b = { s.block with err := b.err, errcode := b.errcode } := by
  obtain ⟨-, rfl⟩ | ⟨-, rfl⟩ := h
  · rfl
  · rfl

theorem State.BusyHost.tick_eq {s : State} {b : Block} (h : s.BusyHost b) : b.tick = s.block.tick := by
  rw [h.keeps]

theorem State.BusyHost.dueOp_eq {s : State} {b : Block} (h : s.BusyHost b) : b.dueOp = s.block.dueOp := by
  rw [h.keeps]
  rfl

/-- While a command runs: the sequencer's part of the edge after the host's. -/
theorem step_of_busy {s : State} (hr : s.NoResetNext) (hbusy : s.block.busy = true) :
    ∃ b, s.BusyHost b ∧ step s = ({ s.passEdge with block := b } : State).sequence := by
  by_cases hw : ∃ w, s.edgeInput = .access (.write .cmd w)
  · obtain ⟨w, hin⟩ := hw
    exact ⟨_, .inr ⟨⟨w, hin⟩, rfl⟩, step_of_write_busy hbusy hin⟩
  · refine ⟨_, .inl ⟨not_exists.mp hw, rfl⟩, ?_⟩
    rw [step_of_quiet hr (not_exists.mp hw), hbusy, sequenceAfter_busy]
    rfl

/-- While no command runs, a write to CMD is refused or accepts its command. -/
theorem edge_of_write_idle {s t : State} {w : Word} (hin : s.edgeInput = .access (.write .cmd w))
    (hbusy : s.block.busy = false) (hstep : step s = .next t) : s.Edge t := by
  have hnext {u : State} (h : step s = .next u) : t = u := Host.Outcome.next.inj (hstep.symm.trans h)
  by_cases href : s.block.released = true ∨ decode w = .illegal ∨ decode w = .badCount
  · obtain ⟨r, hnew, -⟩ := step_of_write_refused hbusy hin href
    exact hnext hnew ▸ .refused r hin hbusy
  · obtain ⟨hr, hill, hbad⟩ : s.block.released = false ∧ decode w ≠ .illegal ∧ decode w ≠ .badCount := by
      simpa [not_or] using href
    cases hw : decode w with
    | illegal => exact absurd hw hill
    | badCount => exact absurd hw hbad
    | cmd i =>
      obtain ⟨-, -, hlatch⟩ := fields_of_decode hw
      rw [hnext (step_of_write_accepted ⟨hbusy, hr⟩ hin hw), hlatch]
      exact .accepted hin ⟨hbusy, hr⟩ hw

theorem edge_of_sequence {s t : State} {b : Block} (hr : s.NoResetNext) (hbusy : s.block.busy = true)
    (hhost : s.BusyHost b) (hseq : ({ s.passEdge with block := b } : State).sequence = .next t) : s.Edge t := by
  by_cases htick : s.block.tick = s.params.lastTick
  · rw [State.sequence_of_last (hhost.tick_eq.trans htick)] at hseq
    obtain ⟨-, hfault⟩ | ⟨op, hdue, hnext⟩ := State.microStep_cases { s.passEdge with block := b }
    · cases hseq.symm.trans hfault
    · cases hseq.symm.trans hnext
      exact .micro hr hbusy hhost htick hdue
  · have hnot : b.tick ≠ s.params.lastTick := hhost.tick_eq ▸ htick
    rw [State.sequence_of_not_last hnot] at hseq
    cases hseq
    exact .tick hr hbusy hhost htick

/-- A step is one of the effects of a clock edge. -/
theorem edge_of_step {s t : State} (hstep : step s = .next t) : s.Edge t := by
  by_cases hreset : ∃ a, s.edgeInput = .rst a
  · obtain ⟨a, hin⟩ := hreset
    cases hstep.symm.trans (step_of_rst hin)
    exact .reset hin
  have hr : s.NoResetNext := not_exists.mp hreset
  cases hbusy : s.block.busy with
  | true =>
    obtain ⟨b, hhost, hseq⟩ := step_of_busy hr hbusy
    exact edge_of_sequence hr hbusy hhost (hseq.symm.trans hstep)
  | false =>
    by_cases hw : ∃ w, s.edgeInput = .access (.write .cmd w)
    · obtain ⟨w, hin⟩ := hw
      exact edge_of_write_idle hin hbusy hstep
    · cases hstep.symm.trans (step_of_quiet_idle hbusy hr (not_exists.mp hw))
      exact .idle hr (not_exists.mp hw) hbusy

/-- A step has a next state when UPC names a micro-operation of the running command. -/
theorem step_next_of_due {s : State} (hdue : s.block.busy = true → s.block.dueOp.isSome = true) :
    ∃ t, step s = .next t := by
  by_cases hreset : ∃ a, s.edgeInput = .rst a
  · obtain ⟨a, hin⟩ := hreset
    exact ⟨_, step_of_rst hin⟩
  have hr : s.NoResetNext := not_exists.mp hreset
  cases hbusy : s.block.busy with
  | true =>
    obtain ⟨b, hhost, hseq⟩ := step_of_busy hr hbusy
    obtain ⟨op, hop⟩ := Option.isSome_iff_exists.mp (hdue hbusy)
    rw [hseq]
    by_cases htick : b.tick = s.params.lastTick
    · exact ⟨_, (State.sequence_of_last htick).trans (State.microStep_of_due (hhost.dueOp_eq.trans hop))⟩
    · exact ⟨_, State.sequence_of_not_last htick⟩
  | false =>
    by_cases hw : ∃ w, s.edgeInput = .access (.write .cmd w)
    · obtain ⟨w, hin⟩ := hw
      obtain ⟨b, hstep⟩ := step_of_write_idle hbusy hin
      exact ⟨_, hstep⟩
    · exact ⟨_, step_of_quiet_idle hbusy hr (not_exists.mp hw)⟩

/-! ### The invariant over the host's part of an edge -/

theorem Block.inv_reset (p : Config.Params) : Block.reset.Inv p where
  idleLines _ := ⟨rfl, rfl⟩
  idleIndex _ := ⟨rfl, rfl⟩
  dueIndex h := nomatch h
  tickBound := Nat.succ_pos _
  runLines h := nomatch h
  busyOwned h := nomatch h
  busyNotDone h := nomatch h
  countBound h := nomatch h
  errIff := by simp [Block.reset]
  errBound := by simp [Block.reset]
  rxBound := by simp [Block.reset]
  rxRest k _ := Block.reset_rxbuf_getElem k
  rxProgress h := nomatch h

theorem Block.Inv.refuse {p : Config.Params} {b : Block} (h : b.Inv p) (r : Reason) : (b.refuse r).Inv p :=
  { h with
    errIff := by cases r <;> simp [Reason.code]
    errBound := by cases r <;> simp [Reason.code] }

theorem Block.Inv.clearDone {p : Config.Params} {b : Block} (h : b.Inv p) : b.clearDone.Inv p :=
  { h with busyNotDone := fun _ => rfl }

theorem State.BusyHost.inv {s : State} {b : Block} (hhost : s.BusyHost b) (h : s.Inv) : b.Inv s.params := by
  obtain ⟨-, rfl⟩ | ⟨-, rfl⟩ := hhost
  · exact h
  · exact Block.Inv.refuse h _

theorem script_fieldsOf_ne_nil (i : Instr) : 0 < (script (fieldsOf i)).length := by
  cases i <;> exact Nat.succ_pos _

theorem fieldsOf_cnt_le {i : Instr} (hwf : i.WellFormed) : (fieldsOf i).cnt.toNat ≤ 8 := by
  cases i with
  | readRegs a n => exact of_decide_eq_true hwf
  | sendByte d => exact Nat.zero_le 8
  | recvByte => exact Nat.zero_le 8
  | writeReg a d => exact Nat.zero_le 8
  | release => exact Nat.zero_le 8

theorem receiving_iff_toNat (b : Block) : b.receiving = true ↔ b.lop.toNat = 2 ∨ b.lop.toNat = 4 := by
  simp [Block.receiving, ← BitVec.toNat_inj]

/-- An accepted command starts at its first micro-operation with the lines idle (R40), and a receiving one with the
receive buffer cleared. -/
theorem Block.Inv.acceptCommand {p : Config.Params} {b : Block} (h : b.Inv p) (hbusy : b.busy = false)
    (hreleased : b.released = false) {i : Instr} (hwf : i.WellFormed) : (b.acceptCommand (fieldsOf i)).Inv p where
  idleLines hb := nomatch hb
  idleIndex hb := nomatch hb
  dueIndex _ := script_fieldsOf_ne_nil i
  tickBound := Nat.succ_pos _
  runLines _ := by
    obtain ⟨hcs, hclk⟩ := h.idleLines hbusy
    exact Prod.ext hcs hclk
  busyOwned _ := hreleased
  busyNotDone _ := rfl
  countBound _ := fieldsOf_cnt_le hwf
  errIff := by simp [Block.acceptCommand, acceptedBlock]
  errBound := by simp [Block.acceptCommand, acceptedBlock]
  rxBound := by
    have := h.rxBound
    simp only [Block.acceptCommand]
    split <;> simp [*]
  rxRest k := by
    have := h.rxRest k
    simp only [Block.acceptCommand]
    split <;> simp_all
  rxProgress _ hrecv := by
    have hop := (receiving_iff_toNat _).mp hrecv
    have hcnt : (b.acceptCommand (fieldsOf i)).rxcnt = 0 := if_pos hop
    rw [hcnt]
    rfl

/-! ### The invariant over the sequencer's part of an edge -/

/-- A cycle of a micro-step that is not its last. -/
theorem Block.Inv.tickUp {p : Config.Params} {b : Block} (h : b.Inv p) (hbusy : b.busy = true)
    (htick : b.tick ≠ p.lastTick) : ({ b with tick := b.tick + 1 } : Block).Inv p :=
  { h with
    idleIndex := fun hb => absurd (hbusy.symm.trans hb) (by decide)
    tickBound := by
      have hbound : b.tick < p.lastTick + 1 := h.tickBound
      show b.tick + 1 < p.lastTick + 1
      omega }

theorem receiving_of_due {b : Block} {k : Fin 8} {last : Bool} (hdue : b.dueOp = some (.sample k last)) :
    b.receiving = true := by
  have hop : b.lop = 0x2#4 ∨ b.lop = 0x4#4 := op_of_sample_mem (List.mem_of_getElem? hdue)
  simpa [Block.receiving] using hop

/-- A due SAMPLE that completes a byte is that of slot RXCNT, and the command is a receiving one. -/
theorem Block.Inv.slot_of_due {p : Config.Params} {b : Block} (h : b.Inv p) (hbusy : b.busy = true) {k : Fin 8}
    (hdue : b.dueOp = some (.sample k true)) :
    b.rxcnt.toNat = k.val ∧ bytesCommitted b.performed = k.val := by
  have hslot : k.val = bytesCommitted b.performed := Block.fits_of_due hdue rfl
  exact ⟨(h.rxProgress hbusy (receiving_of_due hdue)).trans hslot.symm, hslot.symm⟩

/-- The receive buffer after the due micro-operation: at most one byte more, in the next slot. -/
theorem Block.Inv.received_of_due {p : Config.Params} {b : Block} (h : b.Inv p) (hbusy : b.busy = true) {op : MicroOp}
    (hdue : b.dueOp = some op) (m : Bool) :
    (perform op m b).rxcnt.toNat ≤ 8 ∧
    (∀ k : Fin 8, (perform op m b).rxcnt.toNat ≤ k.val → (perform op m b).rxbuf[k] = 0) ∧
    (b.receiving = true → (perform op m b).rxcnt.toNat = bytesCommitted (b.performed ++ [op])) := by
  cases hcommits : op.commits with
  | false =>
    obtain ⟨hbuf, hcnt⟩ := Block.received_eq_iff.mp (perform_received hcommits m b)
    have hbytes : bytesCommitted [op] = 0 := bytesCommitted_of_quiet (by simp [Quiet, hcommits])
    rw [hbuf, hcnt, bytesCommitted_append, hbytes]
    exact ⟨h.rxBound, h.rxRest, h.rxProgress hbusy⟩
  | true =>
    obtain ⟨k, rfl⟩ : ∃ k, op = .sample k true := by cases op <;> simp_all [MicroOp.commits]
    obtain ⟨hcnt, hbytes⟩ := h.slot_of_due hbusy hdue
    have hnew : (perform (.sample k true) m b).rxcnt.toNat = k.val + 1 := Nat.mod_eq_of_lt (by omega)
    refine ⟨by omega, fun j hj => ?_, fun _ => ?_⟩
    · have hne : k.val ≠ j.val := by omega
      exact (Vector.getElem_set_ne k.isLt j.isLt hne).trans (h.rxRest j (by omega))
    · rw [hnew, bytesCommitted_append, hbytes]
      rfl

theorem Block.receiving_congr {b c : Block} (h : c.latch = b.latch) : c.receiving = b.receiving := by
  have hlop : c.lop = b.lop := congrArg Latch.op h
  rw [Block.receiving, hlop, Block.receiving]

/-- What every micro-operation leaves of the invariant, whether or not it ends the command. -/
theorem Block.Inv.perform_flags {p : Config.Params} {b : Block} (h : b.Inv p) (op : MicroOp) (m : Bool) :
    ((perform op m b).err = true ↔ (perform op m b).errcode ≠ 0) ∧ (perform op m b).errcode.toNat ≤ 4 := by
  obtain ⟨-, -, herr, hcode, -⟩ := perform_keeps op m b
  rw [herr, hcode]
  exact ⟨h.errIff, h.errBound⟩

theorem Block.Inv.perform_linesAfter {p : Config.Params} {b : Block} (h : b.Inv p) (hbusy : b.busy = true)
    (op : MicroOp) (m : Bool) :
    ((perform op m b).csNQ, (perform op m b).sclkQ) = linesAfter (b.performed ++ [op]) := by
  rw [perform_lines, linesAfter_concat, h.runLines hbusy]

/-- The last micro-step of a script: the lines are idle again. -/
theorem Block.Inv.perform_complete {p : Config.Params} {b : Block} (h : b.Inv p) (hbusy : b.busy = true) {op : MicroOp}
    (hdue : b.dueOp = some op) (hlast : b.upc.toNat + 1 = (script b.latch).length) (m : Bool) :
    ({ (perform op m b).complete with tick := 0 } : Block).Inv p := by
  obtain ⟨hbound, hrest, -⟩ := h.received_of_due hbusy hdue m
  obtain ⟨herr, hcode⟩ := h.perform_flags op m
  have hlines := h.perform_linesAfter hbusy op m
  rw [← take_succ_of_due hdue, hlast, List.take_length, linesAfter_script] at hlines
  exact {
    idleLines := fun _ => Prod.mk.inj hlines
    idleIndex := fun _ => ⟨rfl, rfl⟩
    dueIndex := fun hb => nomatch hb
    tickBound := Nat.succ_pos _
    runLines := fun hb => nomatch hb
    busyOwned := fun hb => nomatch hb
    busyNotDone := fun hb => nomatch hb
    countBound := fun hb => nomatch hb
    errIff := herr
    errBound := hcode
    rxBound := hbound
    rxRest := hrest
    rxProgress := fun hb => nomatch hb }

/-- REL, the one micro-operation that gives up the lines, is the last of its script (R140). -/
theorem perform_released_of_not_last {b : Block} {op : MicroOp} (hdue : b.dueOp = some op)
    (hmore : b.upc.toNat + 1 ≠ (script b.latch).length) (m : Bool) : (perform op m b).released = b.released := by
  cases op with
  | rel =>
    obtain ⟨-, hscript⟩ := script_eq_of_rel_mem (List.mem_of_getElem? hdue)
    have hupc : b.upc.toNat < (script b.latch).length := (Block.dueOp_isSome_iff b).mp (by rw [hdue]; rfl)
    rw [hscript, List.length_singleton] at hmore hupc
    omega
  | sample k last => exact (perform_sample_keeps_lines k last m b).2.2.2
  | cs v => rfl
  | clk v => rfl
  | dout v => rfl

/-- A micro-step before the last of a script. -/
theorem Block.Inv.perform_next {p : Config.Params} {b : Block} (h : b.Inv p) (hbusy : b.busy = true) {op : MicroOp}
    (hdue : b.dueOp = some op) (hmore : b.upc.toNat + 1 ≠ (script b.latch).length) (m : Bool) :
    ({ perform op m b with upc := b.upc + 1, tick := 0 } : Block).Inv p := by
  obtain ⟨hbound, hrest, hprogress⟩ := h.received_of_due hbusy hdue m
  obtain ⟨herr, hcode⟩ := h.perform_flags op m
  obtain ⟨hbusy', hdone, -, -, hlatch, -, -⟩ := perform_keeps op m b
  have hlt := h.dueIndex hbusy
  have hlen := script_length_le b.latch
  have hupc : (b.upc + 1).toNat = b.upc.toNat + 1 := by
    rw [BitVec.toNat_add]
    exact Nat.mod_eq_of_lt (by simp; omega)
  have hperformed : ({ perform op m b with upc := b.upc + 1, tick := 0 } : Block).performed = b.performed ++ [op] := by
    rw [← take_succ_of_due hdue, ← hlatch, ← hupc]
    rfl
  exact {
    idleLines := fun hb => absurd ((hbusy'.trans hbusy).symm.trans hb) (by decide)
    idleIndex := fun hb => absurd ((hbusy'.trans hbusy).symm.trans hb) (by decide)
    dueIndex := fun _ => by
      show (b.upc + 1).toNat < (script (perform op m b).latch).length
      rw [hlatch, hupc]
      omega
    tickBound := Nat.succ_pos _
    runLines := fun _ => by
      rw [hperformed]
      exact h.perform_linesAfter hbusy op m
    busyOwned := fun _ => (perform_released_of_not_last hdue hmore m).trans (h.busyOwned hbusy)
    busyNotDone := fun _ => hdone.trans (h.busyNotDone hbusy)
    countBound := fun _ => by
      have hcnt : (perform op m b).lcnt = b.lcnt := congrArg Latch.cnt hlatch
      show (perform op m b).lcnt.toNat ≤ 8
      rw [hcnt]
      exact h.countBound hbusy
    errIff := herr
    errBound := hcode
    rxBound := hbound
    rxRest := hrest
    rxProgress := fun _ hrecv => by
      rw [hperformed]
      exact hprogress ((Block.receiving_congr hlatch).symm.trans hrecv) }

/-- A micro-step. -/
theorem Block.Inv.perform_advance {p : Config.Params} {b : Block} (h : b.Inv p) (hbusy : b.busy = true) {op : MicroOp}
    (hdue : b.dueOp = some op) (m : Bool) : ({ (perform op m b).advance with tick := 0 } : Block).Inv p := by
  by_cases hlast : b.upc.toNat + 1 = (script b.latch).length
  · rw [perform_advance_of_last hlast]
    exact h.perform_complete hbusy hdue hlast m
  · rw [perform_advance_of_not_last hlast]
    exact h.perform_next hbusy hdue hlast m

/-! ### The invariant over runs (R153, R181) -/

/-- Settles O48: the block's part of the reset state is `Block.reset`, whatever the environment is going to present. -/
theorem resetStateSatisfiesTheInvariant : Obligations.ResetStateSatisfiesTheInvariant :=
  fun p _ _ => Block.inv_reset p

/-- Settles O49: along the effects of a clock edge; the host's part of a busy edge is a refusal at most, and the
sequencer's part is then a tick or a micro-step. -/
theorem everyStepKeepsTheInvariant : Obligations.EveryStepKeepsTheInvariant := by
  intro s t h hstep
  have hbusyOf {b : Block} (hhost : s.BusyHost b) (hbusy : s.block.busy = true) : b.busy = true := by
    rw [hhost.keeps]
    exact hbusy
  cases edge_of_step hstep with
  | reset => exact Block.inv_reset s.params
  | idle => exact h
  | refused r => exact h.clearDone.refuse r
  | accepted _ hs hw => exact h.acceptCommand hs.1 hs.2 (fields_of_decode hw).1
  | tick _ hbusy hhost htick => exact (hhost.inv h).tickUp (hbusyOf hhost hbusy) (hhost.tick_eq ▸ htick)
  | micro _ hbusy hhost _ hdue => exact (hhost.inv h).perform_advance (hbusyOf hhost hbusy) hdue _

/-- Settles O50: under the invariant UPC names a micro-operation of the running command. -/
theorem noStepFails : Obligations.NoStepFails :=
  fun s h => step_next_of_due fun hbusy => (Block.dueOp_isSome_iff s.block).mpr (h.dueIndex hbusy)

theorem coreRun_succ_of_next (M : Host.Core) {s t : M.State} (n : Nat) (h : M.step s = .next t) :
    M.run (n + 1) s = M.run n t := by
  rw [Host.Core.run, h]

theorem run_succ_of_next {s t : State} (n : Nat) (h : step s = .next t) :
    Host.Core.run Sys2Proof.core (n + 1) s = Host.Core.run Sys2Proof.core n t :=
  coreRun_succ_of_next Sys2Proof.core n h

/-- From the invariant the machine runs for ever within it. -/
theorem run_next_of_inv (n : Nat) {s : State} (h : s.Inv) :
    ∃ t, Host.Core.run Sys2Proof.core n s = .next t ∧ State.Inv t := by
  induction n generalizing s with
  | zero => exact ⟨s, rfl, h⟩
  | succ n ih =>
    obtain ⟨u, hstep⟩ := noStepFails s h
    rw [run_succ_of_next n hstep]
    exact ih (everyStepKeepsTheInvariant s u h hstep)

/-- Settles O51: the reset state satisfies the invariant, and from it the machine runs for ever within it. -/
theorem theMachineRunsFromResetForEver : Obligations.TheMachineRunsFromResetForEver :=
  fun p port miso n => run_next_of_inv n (resetStateSatisfiesTheInvariant p port miso)

/-- STEP_CYCLES - 1 fits in the width of TICK. -/
theorem lastTick_lt_two_pow_tickBits (p : Config.Params) : p.lastTick < 2 ^ p.tickBits := by
  unfold Config.Params.tickBits
  split
  next hzero => simp [hzero]
  next => exact Nat.lt_log2_self

/-- Settles O52: UPC is below the length of a script, and TICK below STEP_CYCLES. -/
theorem microStepIndexAndTimerStayInRange : Obligations.MicroStepIndexAndTimerStayInRange := by
  intro s h
  refine ⟨?_, (Nat.lt_succ_iff.mp h.tickBound).trans_lt (lastTick_lt_two_pow_tickBits _)⟩
  cases hbusy : s.block.busy with
  | false =>
    rw [(h.idleIndex hbusy).1]
    exact Nat.zero_le _
  | true =>
    have := h.dueIndex hbusy
    have := script_length_le s.block.latch
    omega

/-- Settles O33: the due CLK changes the clock line that the performed micro-operations left, which is SCLK_Q. -/
theorem everyClockOperationIsAnEdge : Obligations.EveryClockOperationIsAnEdge := by
  intro s v h hbusy hdue
  have hline : s.block.sclkQ = (linesAfter s.block.performed).2 := congrArg Prod.snd (h.runLines hbusy)
  exact hline.trans (Block.fits_of_due hdue)

end Sys2Proof.Machine
end

section
/-! PROOFS. What changes at an edge and by what cause (spec/10_state.md R26 to R35): the flags, the latched command, the
receive side and TICK, each along the effects of a clock edge. -/

namespace Sys2Proof.Machine

open Sys2Proof.Laws.EncodeFields (fieldsOf)

/-! ### The micro-step beside the host's part of its edge -/

/-- Everything the advance after a micro-operation can do. -/
theorem Block.perform_advance_cases (op : MicroOp) (m : Bool) (b : Block) :
    (b.upc.toNat + 1 = (script b.latch).length ∧ (perform op m b).advance = (perform op m b).complete) ∨
    (b.upc.toNat + 1 ≠ (script b.latch).length ∧
      (perform op m b).advance = { perform op m b with upc := b.upc + 1 }) := by
  by_cases hlast : b.upc.toNat + 1 = (script b.latch).length
  · exact .inl ⟨hlast, perform_advance_of_last hlast op m⟩
  · exact .inr ⟨hlast, perform_advance_of_not_last hlast op m⟩

/-- A micro-step keeps ERR, ERRCODE and the latched fields. -/
theorem Block.perform_advance_keeps (op : MicroOp) (m : Bool) (b : Block) :
    (perform op m b).advance.err = b.err ∧ (perform op m b).advance.errcode = b.errcode ∧
      (perform op m b).advance.latch = b.latch := by
  obtain ⟨-, -, herr, hcode, hlatch, -⟩ := perform_keeps op m b
  obtain ⟨-, hadv⟩ | ⟨-, hadv⟩ := b.perform_advance_cases op m
  · exact hadv ▸ ⟨herr, hcode, hlatch⟩
  · exact hadv ▸ ⟨herr, hcode, hlatch⟩

/-- The micro-step after the host's part of the edge is the one there would have been, ERR and ERRCODE apart. -/
theorem State.BusyHost.advance_eq {s : State} {b : Block} (hhost : s.BusyHost b) (op : MicroOp) (m : Bool) :
    (perform op m b).advance =
      { (perform op m s.block).advance with err := b.err, errcode := b.errcode } := by
  obtain ⟨-, rfl⟩ | ⟨-, rfl⟩ := hhost
  · obtain ⟨herr, hcode, -⟩ := s.block.perform_advance_keeps op m
    rw [← herr, ← hcode]
  · exact refuse_then_advance s.block .busy op m

/-- While a command runs, ERR and ERRCODE change only at a write to CMD. -/
theorem State.BusyHost.write_of_err_ne {s : State} {b : Block} (hhost : s.BusyHost b)
    (h : b.err ≠ s.block.err ∨ b.errcode ≠ s.block.errcode) : ∃ w, s.edgeInput = .access (.write .cmd w) := by
  obtain ⟨-, rfl⟩ | ⟨hw, -⟩ := hhost
  · exact absurd h (by simp)
  · exact hw

/-- A busy edge that is not the last cycle of its micro-step. -/
theorem step_of_tick {s : State} (hr : s.NoResetNext) (hbusy : s.block.busy = true)
    (htick : s.block.tick ≠ s.params.lastTick) :
    ∃ b, s.BusyHost b ∧ step s = .next { s.passEdge with
      block := { s.block with tick := s.block.tick + 1, err := b.err, errcode := b.errcode } } := by
  obtain ⟨b, hhost, hseq⟩ := step_of_busy hr hbusy
  have hnot : b.tick ≠ s.params.lastTick := hhost.tick_eq ▸ htick
  refine ⟨b, hhost, hseq.trans ((State.sequence_of_not_last hnot).trans ?_)⟩
  rw [State.tickUp, hhost.keeps]

/-- A busy edge that is the last cycle of its micro-step. -/
theorem step_of_micro {s : State} (hr : s.NoResetNext) (hbusy : s.block.busy = true)
    (htick : s.block.tick = s.params.lastTick) {op : MicroOp} (hdue : s.block.dueOp = some op) :
    ∃ b, s.BusyHost b ∧ step s = .next { s.passEdge with
      block := { (perform op s.passEdge.misoLevel s.block).advance with
        tick := 0, err := b.err, errcode := b.errcode }
      misoIn := s.misoAfter op } := by
  obtain ⟨b, hhost, hseq⟩ := step_of_busy hr hbusy
  have hmicro := State.microStep_of_due (s := { s.passEdge with block := b }) (hhost.dueOp_eq.trans hdue)
  refine ⟨b, hhost, hseq.trans ((State.sequence_of_last (hhost.tick_eq.trans htick)).trans (hmicro.trans ?_))⟩
  rw [hhost.advance_eq]
  rfl

/-- Settles O28: no edge leaves a command running with TICK above 0 when none ran before; a busy edge is a tick or a
micro-step beside the host's part. -/
theorem busyEdgeTicksOrPerformsAMicroStep : Obligations.BusyEdgeTicksOrPerformsAMicroStep := by
  intro s h
  refine ⟨fun hidle => ⟨(h.idleIndex hidle).2, fun t hstep _ => ?_⟩, fun hbusy hr htick => ?_, fun hbusy hr htick => ?_⟩
  · cases edge_of_step hstep with
    | reset => rfl
    | idle => exact (h.idleIndex hidle).2
    | refused => exact (h.idleIndex hidle).2
    | accepted => rfl
    | tick _ hbusy => exact absurd (hidle.symm.trans hbusy) (by decide)
    | micro _ hbusy => exact absurd (hidle.symm.trans hbusy) (by decide)
  · have hnot : s.block.tick ≠ s.params.lastTick := fun heq => htick.ne (congrArg (· + 1) heq)
    obtain ⟨b, -, hstep⟩ := step_of_tick hr hbusy hnot
    exact ⟨_, hstep, rfl, rfl⟩
  · obtain ⟨op, hdue⟩ := Option.isSome_iff_exists.mp ((Block.dueOp_isSome_iff s.block).mpr (h.dueIndex hbusy))
    obtain ⟨b, -, hstep⟩ := step_of_micro hr hbusy (Nat.succ.inj htick) hdue
    refine ⟨_, _, s.passEdge.misoLevel, op, hstep, hdue, Block.microStep_of_due hdue _, fun x later hin => ?_, rfl, rfl,
      rfl⟩
    simp [State.misoLevel, hin]

/-- Settles O29: such an edge is the environment's part alone. -/
theorem idleEdgeLeavesTheBlock : Obligations.IdleEdgeLeavesTheBlock :=
  fun _ hidle hr hw => ⟨_, step_of_quiet_idle hidle hr hw, rfl, rfl, rfl⟩

/-! ### The flags (R26 to R29) -/

/-- RELEASED changes only by the REL of a running RELEASE. -/
theorem release_of_released_ne {b : Block} {op : MicroOp} (hdue : b.dueOp = some op) (m : Bool)
    (h : (perform op m b).released ≠ b.released) : b.lop = 0x5#4 ∧ (perform op m b).released = true := by
  cases op with
  | rel => exact ⟨(script_eq_of_rel_mem (List.mem_of_getElem? hdue)).1, rfl⟩
  | sample k last => exact absurd (perform_sample_keeps_lines k last m b).2.2.2 h
  | cs v => exact absurd rfl h
  | clk v => exact absurd rfl h
  | dout v => exact absurd rfl h

/-- BUSY, DONE and RELEASED over a micro-step. -/
theorem Block.perform_advance_flags {b : Block} {op : MicroOp} (hdue : b.dueOp = some op) (m : Bool) :
    ((perform op m b).advance.busy ≠ b.busy ∨ (perform op m b).advance.done ≠ b.done →
      b.upc.toNat + 1 = (script b.latch).length ∧ (perform op m b).advance.busy = false ∧
        (perform op m b).advance.done = true) ∧
    ((perform op m b).advance.released ≠ b.released → b.lop = 0x5#4 ∧ (perform op m b).advance.released = true) := by
  obtain ⟨hbusy, hdone, -⟩ := perform_keeps op m b
  obtain ⟨hlast, hadv⟩ | ⟨-, hadv⟩ := b.perform_advance_cases op m
  · rw [hadv]
    exact ⟨fun _ => ⟨hlast, rfl, rfl⟩, release_of_released_ne hdue m⟩
  · rw [hadv]
    exact ⟨fun h => absurd h (by simp [hbusy, hdone]), release_of_released_ne hdue m⟩

/-- Settles O53: along the effects of a clock edge, with the flags over a micro-step. -/
theorem flagsChangeOnlyByTheirCauses : Obligations.FlagsChangeOnlyByTheirCauses := by
  intro s t h hstep hr
  cases edge_of_step hstep with
  | reset hin => exact absurd hin (hr _)
  | idle _ _ hbusy => exact ⟨fun hb hb' => absurd (hb.symm.trans hb') (by decide),
      fun hb hb' => absurd (hb.symm.trans hb') (by decide), fun hne => absurd rfl hne,
      fun hd hd' => absurd (hd.symm.trans hd') (by decide), fun hd hd' => absurd (hd.symm.trans hd') (by decide),
      fun hne => absurd hne (by simp)⟩
  | refused r hin hbusy => simp [hbusy, hin]
  | accepted hin hs hw => simp [Block.acceptCommand, acceptedBlock, hs.1, hs.2, hin, hw]
  | tick _ hbusy hhost =>
    rw [hhost.keeps]
    simpa [hbusy, h.busyNotDone hbusy] using hhost.write_of_err_ne
  | micro _ hbusy hhost _ hdue =>
    obtain ⟨hflags, hreleased⟩ := Block.perform_advance_flags (hhost.dueOp_eq.symm.trans hdue) s.passEdge.misoLevel
    have hnotDone : s.block.done = false := h.busyNotDone hbusy
    rw [hhost.advance_eq]
    refine ⟨fun hidle => absurd (hidle.symm.trans hbusy) (by decide), fun _ hidle => ?_,
      fun hne => ⟨hbusy, hreleased hne⟩, fun hdone => absurd (hdone.symm.trans hnotDone) (by decide), fun _ hdone => ?_,
      hhost.write_of_err_ne⟩
    · obtain ⟨hlast, -, hdone⟩ := hflags (.inl fun heq => absurd (hidle.symm.trans (heq.trans hbusy)) (by decide))
      exact ⟨hlast, hdone⟩
    · obtain ⟨-, hidle, -⟩ := hflags (.inr fun heq => absurd (hdone.symm.trans (heq.trans hnotDone)) (by decide))
      exact ⟨hbusy, hidle⟩

/-! ### The latched command and the receive side (R30 to R32, R34) -/

/-- RXBUF, RXCNT and SHREG. -/
def Block.receiveSide (b : Block) : (Vector Byte 8 × BitVec 4) × Byte := (b.received, b.shreg)

theorem Block.receiveSide_eq_iff {b c : Block} :
    c.receiveSide = b.receiveSide ↔ (c.rxbuf = b.rxbuf ∧ c.rxcnt = b.rxcnt) ∧ c.shreg = b.shreg := by
  rw [← Block.received_eq_iff]
  exact Prod.mk_inj

/-- Only a SAMPLE writes the receive side. -/
theorem perform_receiveSide {op : MicroOp} (h : op.samples = false) (m : Bool) (b : Block) :
    (perform op m b).receiveSide = b.receiveSide := by
  cases op with
  | sample k last => cases h
  | cs v => rfl
  | clk v => rfl
  | dout v => rfl
  | rel => rfl

/-- A micro-step writes the receive side only while a receiving command runs. -/
theorem receiving_of_receiveSide_ne {b : Block} {op : MicroOp} (hdue : b.dueOp = some op) (m : Bool)
    (h : (perform op m b).advance.receiveSide ≠ b.receiveSide) : b.receiving = true := by
  have hadvance : (perform op m b).advance.receiveSide = (perform op m b).receiveSide := by
    obtain ⟨-, hadv⟩ | ⟨-, hadv⟩ := b.perform_advance_cases op m <;> exact hadv ▸ rfl
  cases op with
  | sample k last => exact receiving_of_due hdue
  | cs v => exact absurd (hadvance.trans (perform_receiveSide rfl m b)) h
  | clk v => exact absurd (hadvance.trans (perform_receiveSide rfl m b)) h
  | dout v => exact absurd (hadvance.trans (perform_receiveSide rfl m b)) h
  | rel => exact absurd (hadvance.trans (perform_receiveSide rfl m b)) h

/-- An edge that keeps the latch and the receive side needs no cause for a change of either. -/
theorem latchesAndBuffer_of_keeps {b c : Block} {accepted running receiving : Prop} (hlatch : c.latch = b.latch)
    (hside : c.receiveSide = b.receiveSide) :
    (c.latch ≠ b.latch → accepted) ∧ (c.rxbuf ≠ b.rxbuf ∨ c.rxcnt ≠ b.rxcnt → running) ∧
      (c.shreg ≠ b.shreg → receiving) := by
  obtain ⟨⟨hbuf, hcnt⟩, hshreg⟩ := Block.receiveSide_eq_iff.mp hside
  exact ⟨fun h => absurd hlatch h, fun h => absurd h (by simp [hbuf, hcnt]), fun h => absurd hshreg h⟩

/-- Settles O55: along the effects of a clock edge; only an acceptance and a SAMPLE write the latch or the receive
side. -/
theorem latchesAndBufferChangeOnlyByTheirCauses : Obligations.LatchesAndBufferChangeOnlyByTheirCauses := by
  intro s t h hstep hr
  cases edge_of_step hstep with
  | reset hin => exact absurd hin (hr _)
  | idle => exact latchesAndBuffer_of_keeps rfl rfl
  | refused => exact latchesAndBuffer_of_keeps rfl rfl
  | @accepted w i _ hs _ =>
    refine ⟨fun _ => ⟨hs.1, rfl⟩, fun hne => ⟨?_, .inr ⟨hs.1, rfl⟩⟩, fun hne => absurd rfl hne⟩
    refine (receiving_iff_toNat _).mpr (by_contra fun hnot => ?_)
    have hkeep : ¬ ((fieldsOf i).op.toNat = 2 ∨ (fieldsOf i).op.toNat = 4) := hnot
    simp [Block.acceptCommand, hkeep] at hne
  | tick _ _ hhost =>
    rw [hhost.keeps]
    exact latchesAndBuffer_of_keeps rfl rfl
  | @micro b op _ hbusy hhost _ hdue =>
    obtain ⟨-, -, hlatch⟩ := s.block.perform_advance_keeps op s.passEdge.misoLevel
    rw [hhost.advance_eq]
    by_cases hside : (perform op s.passEdge.misoLevel s.block).advance.receiveSide = s.block.receiveSide
    · exact latchesAndBuffer_of_keeps hlatch hside
    · have hrecv : s.block.receiving = true := receiving_of_receiveSide_ne (hhost.dueOp_eq.symm.trans hdue) _ hside
      exact ⟨fun hne => absurd hlatch hne, fun _ => ⟨(Block.receiving_congr hlatch).trans hrecv, .inl hbusy⟩,
        fun _ => ⟨hrecv, hbusy⟩⟩

end Sys2Proof.Machine
end

section
/-! PROOFS. The host port at an edge (spec/10_state.md R38, spec/20_memory.md R51 to R62, spec/30_encoding.md R80): the
fields of STATUS, the register indices, and edges with an access that is no write to CMD. -/

namespace Sys2Proof.Machine

/-! ### STATUS (R38) -/

/-- The flags of STATUS and its reserved bit 7. -/
theorem statusWord_getLsbD (b : Block) :
    (statusWord b).getLsbD 0 = b.busy ∧ (statusWord b).getLsbD 1 = b.done ∧ (statusWord b).getLsbD 2 = b.err ∧
      (statusWord b).getLsbD 3 = b.released ∧ (statusWord b).getLsbD 7 = false := by
  unfold statusWord
  refine ⟨?_, ?_, ?_, ?_, ?_⟩ <;>
    · iterate 7 rw [BitVec.getLsbD_append]
      simp

/-- ERRCODE, RXCNT and the reserved high bits of STATUS. -/
theorem statusWord_extractLsb' (b : Block) :
    (statusWord b).extractLsb' 4 3 = b.errcode ∧ (statusWord b).extractLsb' 8 4 = b.rxcnt ∧
      (statusWord b).extractLsb' 12 20 = 0 := by
  unfold statusWord
  refine ⟨?_, ?_, ?_⟩
  · iterate 4 rw [BitVec.extractLsb'_append_eq_of_le (by decide)]
    exact BitVec.extractLsb'_append_eq_right
  · iterate 6 rw [BitVec.extractLsb'_append_eq_of_le (by decide)]
    exact BitVec.extractLsb'_append_eq_right
  · iterate 7 rw [BitVec.extractLsb'_append_eq_of_le (by decide)]
    exact BitVec.extractLsb'_eq_self

/-- Settles O10: the fields of the concatenation that STATUS is. -/
theorem statusWordHasItsFields : Obligations.StatusWordHasItsFields := by
  intro b
  obtain ⟨hbusy, hdone, herr, hreleased, hzero⟩ := statusWord_getLsbD b
  obtain ⟨hcode, hcnt, hhigh⟩ := statusWord_extractLsb' b
  exact ⟨hbusy, hdone, herr, hreleased, hcode, hzero, hcnt, hhigh⟩

/-! ### Indices and signals (R22, R51, R52) -/

theorem HostReg.index_ofIndex : ∀ i : BitVec 2, (HostReg.ofIndex i).index = i := by decide

theorem HostReg.ofIndex_index (r : HostReg) : HostReg.ofIndex r.index = r := by
  cases r <;> rfl

/-- A write to a register other than CMD is ignored. -/
theorem hostAccess_write_of_ne_cmd {r : HostReg} (hr : r ≠ .cmd) (w : Word) (s : State) :
    hostAccess (.write r w) s = .next s := by
  cases r with
  | cmd => exact absurd rfl hr
  | status => rfl
  | rxdata0 => rfl
  | rxdata1 => rfl

/-- Settles O12: each index by its register, and the access that the signals present. -/
theorem hostIndicesNameTheFourRegisters : Obligations.HostIndicesNameTheFourRegisters := by
  refine ⟨HostReg.index_ofIndex, HostReg.ofIndex_index, fun s => ⟨rfl, rfl, rfl, rfl⟩, fun s w => rfl,
    fun s i w hi => ?_, fun i w => ⟨rfl, rfl, fun wr => rfl, fun v wr => ⟨_, rfl⟩⟩⟩
  refine hostAccess_write_of_ne_cmd (fun hcmd => hi ?_) w s
  rw [← HostReg.index_ofIndex i, hcmd]
  rfl

/-! ### Edges whose access changes nothing (R51, R58, R62) -/

/-- A state with another level of `h_rdata`. -/
def State.withRdata (rd : Word) (s : State) : State := { s with rdata := rd }

/-- An outcome with another level of `h_rdata` in the next state, if there is one. -/
def outcomeWithRdata (rd : Word) : Host.Outcome State Fault Refusal → Host.Outcome State Fault Refusal
  | .next t => .next (t.withRdata rd)
  | .fault r => .fault r
  | .refused r => .refused r

/-- The sequencer neither reads nor writes `h_rdata`. -/
theorem State.sequence_withRdata (rd : Word) (s : State) :
    (s.withRdata rd).sequence = outcomeWithRdata rd s.sequence := by
  by_cases htick : s.block.tick = s.params.lastTick
  · have htick' : (s.withRdata rd).block.tick = (s.withRdata rd).params.lastTick := htick
    rw [State.sequence_of_last htick, State.sequence_of_last htick']
    cases hdue : s.block.dueOp with
    | none =>
      have hdue' : (s.withRdata rd).block.dueOp = none := hdue
      simp [State.microStep, hdue, hdue', outcomeWithRdata]
    | some op =>
      have hdue' : (s.withRdata rd).block.dueOp = some op := hdue
      rw [State.microStep_of_due hdue, State.microStep_of_due hdue']
      rfl
  · have htick' : (s.withRdata rd).block.tick ≠ (s.withRdata rd).params.lastTick := htick
    rw [State.sequence_of_not_last htick, State.sequence_of_not_last htick']
    rfl

theorem sequenceAfter_withRdata (busy : Bool) (rd : Word) (s : State) :
    sequenceAfter busy (.next (s.withRdata rd)) = outcomeWithRdata rd (sequenceAfter busy (.next s)) := by
  cases busy with
  | false => rfl
  | true => exact s.sequence_withRdata rd

/-- An edge with an access that is no write to CMD is an edge with no access, `h_rdata` aside. -/
theorem step_of_ignored {s : State} {a : Access} {rest : List EdgeInput} (hport : s.port = .access a :: rest)
    (ha : ∀ w, a ≠ .write .cmd w) :
    step s = outcomeWithRdata (s.rdataAt (.access a)) (step { s with port := .idle :: rest }) := by
  have hin := State.edgeInput_of_port hport
  have hpass : s.passEdge = State.withRdata (s.rdataAt (.access a))
      { s with rdata := Config.freeRdata s.draws, port := rest, draws := s.draws + 1 } := by
    simp [State.passEdge, State.withRdata, State.portAfter, hin, hport]
  rw [step_of_quiet (by simp [hin]) (by simpa [hin] using ha), hpass, step_of_idle,
    sequenceAfter_withRdata]

/-- Settles O13: a read is an access that is no write to CMD. -/
theorem readReturnsTheStateBeforeTheEdgeAndChangesNothing :
    Obligations.ReadReturnsTheStateBeforeTheEdgeAndChangesNothing := by
  intro s u r rest hport hidle
  rw [step_of_ignored hport (by simp), hidle]
  rfl

/-- Settles O14: so is a write to another register. -/
theorem writesToReadOnlyRegistersAreIgnored : Obligations.WritesToReadOnlyRegistersAreIgnored := by
  intro s r w rest hr hport
  have hstep := step_of_ignored hport (by simp [hr])
  refine ⟨fun u hu => ⟨s.rdataAt (.access (.write r w)), ?_⟩, fun f hf => ?_, fun f hf => ?_⟩
  · rw [hstep, hu]
    rfl
  · rw [hstep, hf]
    rfl
  · rw [hstep, hf]
    rfl

/-! ### POLL (R80) -/

/-- The sequencer leaves the port to the environment. -/
theorem State.sequence_port {s t : State} (h : s.sequence = .next t) : t.port = s.port := by
  by_cases htick : s.block.tick = s.params.lastTick
  · rw [State.sequence_of_last htick] at h
    obtain ⟨-, hfault⟩ | ⟨op, -, hnext⟩ := s.microStep_cases
    · cases h.symm.trans hfault
    · cases h.symm.trans hnext
      rfl
  · cases h.symm.trans (State.sequence_of_not_last htick)
    rfl

theorem sequenceAfter_port {busy : Bool} {s t : State} (h : sequenceAfter busy (.next s) = .next t) :
    t.port = s.port := by
  cases busy with
  | false =>
    cases h
    rfl
  | true => exact State.sequence_port h

/-- Settles O15: a POLL's edge reads STATUS, whose bit 0 is the BUSY that decides whether the POLL stays. -/
theorem pollRepeatsUntilBusyIsClear : Obligations.PollRepeatsUntilBusyIsClear := by
  intro s t rest hport hstep
  have hin := State.edgeInput_of_port hport
  rw [step_of_quiet (by simp [hin]) (by simp [hin])] at hstep
  have hrdata : t.rdata = statusWord s.block := by
    rw [sequenceAfter_rdata hstep, State.passEdge_rdata, hin]
    rfl
  have hbusy : (statusWord s.block).getLsbD 0 = s.block.busy := (statusWord_getLsbD s.block).1
  refine ⟨hrdata, ?_⟩
  rw [sequenceAfter_port hstep, State.passEdge_port, hrdata, hbusy]
  simp [State.portAfter, hport]

/-! ### The step at a write of a command (R52, R151) -/

/-- Settles O17: at a write to CMD the environment's part is that of an edge with no access, and the write runs `exec`
of the decoded command. -/
theorem stepExecutesTheDecodedCommand : Obligations.StepExecutesTheDecodedCommand := by
  intro s w i rest hport hdec
  rw [step_of_write (State.edgeInput_of_port hport), writeCmd, hdec, State.passEdge_of_write hport]

end Sys2Proof.Machine
end

section
/-! PROOFS. Acceptance and refusal of a command as `exec` gives them (spec/60_exceptions.md R150 to R152), and the
length of the accepted script (spec/42_register_sequencer.md R127). -/

namespace Sys2Proof.Machine

open Sys2Proof.Laws.EncodeFields (fieldsOf)

/-! ### Acceptance (R151) -/

/-- The fields a command latches are those of its word. -/
theorem fieldsOf_eq_latchOfWord (i : Instr) : fieldsOf i = latchOfWord (encode i) := (encode_fields i).1.symm

/-- A command that does not receive keeps the receive buffer. -/
theorem Block.acceptCommand_of_not_receiving (b : Block) {l : Latch} (h : ¬ (l.op.toNat = 2 ∨ l.op.toNat = 4)) :
    b.acceptCommand l = acceptedBlock b l := by
  rw [Block.acceptCommand, if_neg h, if_neg h]
  rfl

/-- A receiving command clears the receive buffer. -/
theorem Block.acceptCommand_of_receiving (b : Block) {l : Latch} (h : l.op.toNat = 2 ∨ l.op.toNat = 4) :
    b.acceptCommand l = { acceptedBlock b l with rxbuf := Vector.replicate 8 0, rxcnt := 0 } := by
  rw [Block.acceptCommand, if_pos h, if_pos h]

/-- Settles O18: acceptance of a command that does not receive, with the fields of its word. -/
theorem sendWriteReleaseAcceptanceEffects : Obligations.SendWriteReleaseAcceptanceEffects := by
  intro s i hs hi
  obtain ⟨hwf, hop⟩ : i.WellFormed ∧ ¬ ((fieldsOf i).op.toNat = 2 ∨ (fieldsOf i).op.toNat = 4) := by
    obtain ⟨d, rfl⟩ | ⟨a, d, rfl⟩ | rfl := hi
    · exact ⟨rfl, by simp [fieldsOf]⟩
    · exact ⟨rfl, by simp [fieldsOf]⟩
    · exact ⟨rfl, by simp [fieldsOf]⟩
  rw [exec_of_ready hs hwf, s.block.acceptCommand_of_not_receiving hop, fieldsOf_eq_latchOfWord]
  rfl

/-- Settles O19: acceptance of a receiving command, with the fields of its word. -/
theorem receivingCommandAcceptanceEffects : Obligations.ReceivingCommandAcceptanceEffects := by
  intro s i hs hwf hi
  have hop : (fieldsOf i).op.toNat = 2 ∨ (fieldsOf i).op.toNat = 4 := by
    obtain rfl | ⟨a, n, rfl⟩ := hi
    · exact .inl rfl
    · exact .inr rfl
  rw [exec_of_ready hs hwf, s.block.acceptCommand_of_receiving hop, fieldsOf_eq_latchOfWord]
  rfl

/-- The meaning of every command is one command write of the block. -/
theorem exec_is_commandWrite (i : Instr) (s : State) : ∃ k, exec i s = .next (s.commandWrite k) := by
  cases i with
  | sendByte d => exact ⟨_, rfl⟩
  | recvByte => exact ⟨_, rfl⟩
  | writeReg a d => exact ⟨_, rfl⟩
  | readRegs a n => exact ⟨_, rfl⟩
  | release => exact ⟨_, rfl⟩

/-- Settles O20: a command write while BUSY = 1 is the refusal BUSY. -/
theorem everyCommandIsRefusedWhileBusy : Obligations.EveryCommandIsRefusedWhileBusy := by
  intro s i hbusy
  obtain ⟨k, hk⟩ := exec_is_commandWrite i s
  rw [hk, State.commandWrite, Block.commandWrite_of_busy k hbusy]
  rfl

/-- Settles O21: a command write on released lines is the refusal RELEASED, with DONE cleared. -/
theorem everyCommandIsRefusedOnceReleased : Obligations.EveryCommandIsRefusedOnceReleased := by
  intro s i hbusy hreleased
  obtain ⟨k, hk⟩ := exec_is_commandWrite i s
  rw [hk, State.commandWrite, Block.commandWrite_of_released k hbusy hreleased]
  rfl

/-! ### Lengths of the accepted scripts (R127) -/

theorem script_fieldsOf_length {i : Instr} (hwf : i.WellFormed) : (script (fieldsOf i)).length = scriptLength i := by
  cases i with
  | sendByte d => exact sendByteScript_length d
  | recvByte => exact recvByteScript_length
  | writeReg a d => exact writeRegScript_length a d
  | readRegs a n =>
    have hn : n.toNat ≤ 8 := of_decide_eq_true hwf
    exact (readRegsScript_length a n).trans (by rw [Nat.min_eq_left hn]; rfl)
  | release => rfl

/-- Settles O32: an accepted command latches its fields, whose script has the command's length. -/
theorem scriptsHaveTheirLengths : Obligations.ScriptsHaveTheirLengths := by
  intro s t i hs hwf hexec
  cases hexec.symm.trans (exec_of_ready hs hwf)
  exact script_fieldsOf_length hwf

end Sys2Proof.Machine
end

section
/-! PROOFS. The two sides of the block (spec/40_line_ops.md R98, R106): the receive side, which MISO reaches, and the
rest, which it does not. -/

namespace Sys2Proof.Machine

/-- The block without its receive side: RXBUF, RXCNT and SHREG at 0. -/
def Block.sendSide (b : Block) : Block := { b with rxbuf := Vector.replicate 8 0, rxcnt := 0, shreg := 0 }

theorem Block.eq_of_sides {b c : Block} (hsend : b.sendSide = c.sendSide) (hrecv : b.receiveSide = c.receiveSide) :
    b = c := by
  obtain ⟨⟩ := b
  obtain ⟨⟩ := c
  simp_all [Block.sendSide, Block.receiveSide, Block.received]

/-- No micro-operation brings the receive side or MISO to the rest of the block. -/
theorem perform_sendSide (op : MicroOp) (m : Bool) (b : Block) :
    (perform op m b).sendSide = (perform op false b.sendSide).sendSide := by
  cases op with
  | sample k last => cases last <;> rfl
  | cs v => rfl
  | clk v => rfl
  | dout v => rfl
  | rel => rfl

theorem Block.advance_sendSide (b : Block) : b.advance.sendSide = b.sendSide.advance.sendSide := by
  by_cases hlast : b.upc.toNat + 1 = (script b.latch).length
  · have hlast' : b.sendSide.upc.toNat + 1 = (script b.sendSide.latch).length := hlast
    rw [Block.advance_of_last hlast, Block.advance_of_last hlast']
    rfl
  · have hlast' : b.sendSide.upc.toNat + 1 ≠ (script b.sendSide.latch).length := hlast
    rw [Block.advance_of_not_last hlast, Block.advance_of_not_last hlast']
    rfl

theorem Block.microStep_sendSide (m : Bool) (b : Block) :
    (b.microStep m).map Block.sendSide = (b.sendSide.microStep false).map Block.sendSide := by
  cases hdue : b.dueOp with
  | none =>
    have hdue' : b.sendSide.dueOp = none := hdue
    simp [Block.microStep, hdue, hdue']
  | some op =>
    have hdue' : b.sendSide.dueOp = some op := hdue
    have hside : (perform op m b).advance.sendSide = (perform op false b.sendSide).advance.sendSide := by
      rw [Block.advance_sendSide, perform_sendSide, ← Block.advance_sendSide]
    rw [Block.microStep_of_due hdue, Block.microStep_of_due hdue']
    exact congrArg (fun c : Block => some { c with tick := 0 }) hside

/-- The pins over a run are a function of the block without its receive side. -/
theorem pinTrace_congr {miso miso' : Nat → Bool} (n : Nat) {b c : Block} (h : b.sendSide = c.sendSide) :
    pinTrace miso n b = pinTrace miso' n c := by
  have hpins {b c : Block} (h : b.sendSide = c.sendSide) : pins b = pins c := by
    show pins b.sendSide = pins c.sendSide
    rw [h]
  induction n generalizing miso miso' b c with
  | zero => exact congrArg (fun p => [p]) (hpins h)
  | succ n ih =>
    have hmicro : (b.microStep (miso 0)).map Block.sendSide = (c.microStep (miso' 0)).map Block.sendSide := by
      rw [b.microStep_sendSide, h, ← c.microStep_sendSide]
    unfold pinTrace microTrace
    cases hb : b.microStep (miso 0) with
    | none =>
      have hc : c.microStep (miso' 0) = none := by simpa [hb, eq_comm] using hmicro
      rw [hc]
      exact congrArg (fun p => [p]) (hpins h)
    | some b' =>
      obtain ⟨c', hc, hside⟩ : ∃ c', c.microStep (miso' 0) = some c' ∧ c'.sendSide = b'.sendSide := by
        simpa [hb, eq_comm] using hmicro
      rw [hc]
      exact congrArg₂ List.cons (hpins h) (ih hside.symm)

/-- Settles O34: MISO reaches the receive side alone, and the pins do not depend on it. -/
theorem pinsDoNotDependOnMiso : Obligations.PinsDoNotDependOnMiso :=
  fun _ _ _ n => pinTrace_congr n rfl

end Sys2Proof.Machine
end

section
/-! PROOFS. The output latches over micro-operations (spec/40_line_ops.md R92 to R94), and the select framing of the
commands (spec/42_register_sequencer.md R130). -/

namespace Sys2Proof.Machine

open Sys2Proof.Laws.EncodeFields (fieldsOf)

/-- CS_N_Q, SCLK_Q and MOSI_Q after a micro-operation. -/
def latchStep (latches : Bool × Bool × Bool) : MicroOp → Bool × Bool × Bool
  | .cs v => (v, latches.2)
  | .clk v => (latches.1, v, latches.2.2)
  | .dout v => (latches.1, latches.2.1, v)
  | .sample _ _ => latches
  | .rel => latches

theorem perform_outputLatches (op : MicroOp) (m : Bool) (b : Block) :
    (perform op m b).outputLatches = latchStep b.outputLatches op := by
  cases op with
  | sample k last => cases last <;> rfl
  | cs v => rfl
  | clk v => rfl
  | dout v => rfl
  | rel => rfl

theorem performFrom_outputLatches (miso : Nat → Bool) (i : Nat) (ops : List MicroOp) (b : Block) :
    (performFrom miso i ops b).outputLatches = ops.foldl latchStep b.outputLatches := by
  induction ops generalizing i b with
  | nil => rfl
  | cons op ops ih => rw [performFrom_cons, ih, perform_outputLatches, List.foldl_cons]

/-- Data operations leave the select line. -/
theorem foldl_latchStep_of_dataOps {ops : List MicroOp} (h : DataOps ops) (latches : Bool × Bool × Bool) :
    (ops.foldl latchStep latches).1 = latches.1 := by
  induction ops generalizing latches with
  | nil => rfl
  | cons op ops ih =>
    obtain ⟨hop, hops⟩ := List.forall_mem_cons.mp h
    rw [List.foldl_cons, ih hops]
    cases op with
    | cs v => cases hop
    | rel => cases hop
    | clk v => rfl
    | dout v => rfl
    | sample k last => rfl

theorem DataOps.take {ops : List MicroOp} (h : DataOps ops) (j : Nat) : DataOps (ops.take j) :=
  fun op hop => h op (List.mem_of_mem_take hop)

/-- In a frame, select is asserted from after its first operation to before its last (R130). -/
theorem foldl_latchStep_take_frame {body : List MicroOp} (h : DataOps body) (latches : Bool × Bool × Bool) {j : Nat}
    (hpos : 0 < j) (hj : j ≤ body.length + 2) :
    ((([MicroOp.cs false] ++ body ++ [MicroOp.cs true]).take j).foldl latchStep latches).1 = false ↔
      j < body.length + 2 := by
  obtain ⟨j, rfl⟩ := Nat.exists_eq_succ_of_ne_zero hpos.ne'
  simp only [List.cons_append, List.nil_append, List.take_succ_cons, List.foldl_cons]
  rcases Nat.lt_or_ge body.length j with hend | hin
  · have hwhole : (body ++ [MicroOp.cs true]).take j = body ++ [MicroOp.cs true] :=
      List.take_of_length_le (by simp; omega)
    rw [hwhole, List.foldl_append]
    exact iff_of_false (by simp [latchStep]) (by omega)
  · rw [List.take_append_of_le_length hin, foldl_latchStep_of_dataOps (h.take j)]
    exact iff_of_true rfl (by omega)

/-! ### Runs of accepted commands -/

theorem performFrom_released {ops : List MicroOp} (h : MicroOp.rel ∉ ops) (miso : Nat → Bool) (i : Nat) (b : Block) :
    (performFrom miso i ops b).released = b.released := by
  induction ops generalizing i b with
  | nil => rfl
  | cons op ops ih =>
    obtain ⟨hop, hops⟩ : MicroOp.rel ≠ op ∧ MicroOp.rel ∉ ops := by simpa using h
    rw [performFrom_cons, ih hops]
    cases op with
    | rel => exact absurd rfl hop
    | sample k last => exact (perform_sample_keeps_lines k last _ b).2.2.2
    | cs v => rfl
    | clk v => rfl
    | dout v => rfl

/-- No command but RELEASE gives up the lines. -/
theorem rel_not_mem_script {l : Latch} (h : l.op ≠ 0x5#4) : MicroOp.rel ∉ script l :=
  fun hrel => h (script_eq_of_rel_mem hrel).1

@[simp] theorem Block.acceptCommand_latch (b : Block) (l : Latch) : (b.acceptCommand l).latch = l := rfl

/-- Up to its completion a run of an accepted command is the micro-operations of its script performed in order. -/
theorem runMicro_acceptCommand_of_lt (b : Block) (l : Latch) (miso : Nat → Bool) {j : Nat}
    (hj : j < (script l).length) :
    runMicro miso j (b.acceptCommand l) = some ((b.acceptCommand l).afterOps miso j) :=
  runMicro_of_lt rfl rfl miso hj

/-- The block once the whole script of an accepted command has been performed, and the command completed. -/
def Block.completed (b : Block) (l : Latch) (miso : Nat → Bool) : Block :=
  { performFrom miso 0 (script l) (b.acceptCommand l) with busy := false, done := true, upc := 0, tick := 0 }

theorem runMicro_acceptCommand_whole (b : Block) {i : Instr} (hwf : i.WellFormed) (miso : Nat → Bool) :
    runMicro miso (scriptLength i) (b.acceptCommand (fieldsOf i)) = some (b.completed (fieldsOf i) miso) := by
  obtain ⟨j, hj⟩ := Nat.exists_eq_succ_of_ne_zero (script_fieldsOf_ne_nil i).ne'
  have htake : (script (fieldsOf i)).take (j + 1) = script (fieldsOf i) := List.take_of_length_le hj.le
  rw [← script_fieldsOf_length hwf, hj, runMicro_of_eq_length rfl rfl miso hj.symm, Block.afterOps,
    Block.acceptCommand_latch, htake]
  rfl

/-- The output latches over the run of an accepted command, its completion included; and the lines stay owned if no
micro-operation of it gives them up. -/
theorem runMicro_acceptCommand (b : Block) {i : Instr} (hwf : i.WellFormed) (miso : Nat → Bool) {j : Nat}
    (hj : j ≤ scriptLength i) :
    ∃ c, runMicro miso j (b.acceptCommand (fieldsOf i)) = some c ∧
      c.outputLatches = ((script (fieldsOf i)).take j).foldl latchStep b.outputLatches ∧
      (MicroOp.rel ∉ script (fieldsOf i) → c.released = b.released) := by
  have hlen := script_fieldsOf_length hwf
  rcases Nat.lt_or_eq_of_le hj with hlt | rfl
  · exact ⟨_, runMicro_acceptCommand_of_lt b _ miso (hlen ▸ hlt), performFrom_outputLatches miso 0 _ _,
      fun hrel => performFrom_released (fun hmem => hrel (List.mem_of_mem_take hmem)) miso 0 _⟩
  · refine ⟨_, runMicro_acceptCommand_whole b hwf miso, ?_, fun hrel => performFrom_released hrel miso 0 _⟩
    rw [← hlen, List.take_length]
    exact performFrom_outputLatches miso 0 _ _

/-- Settles O41: a register command's script is one frame, and SEND_BYTE's and RECV_BYTE's move no select line. -/
theorem selectFramesTheRegisterTransactions : Obligations.SelectFramesTheRegisterTransactions := by
  intro s t i miso j h hs hwf hexec hpos hj
  cases hexec.symm.trans (exec_of_ready hs hwf)
  obtain ⟨c, hrun, hlatches, -⟩ := runMicro_acceptCommand s.block hwf miso hj
  have hcs : c.csNQ = (((script (fieldsOf i)).take j).foldl latchStep s.block.outputLatches).1 :=
    congrArg Prod.fst hlatches
  refine ⟨c, hrun, fun hreg => ?_, fun hbyte => ?_⟩
  · have hop : (fieldsOf i).op = 0x3#4 ∨ (fieldsOf i).op = 0x4#4 := by
      obtain ⟨a, d, rfl⟩ | ⟨a, n, rfl⟩ := hreg
      · exact .inl rfl
      · exact .inr rfl
    obtain ⟨h3, h4, -⟩ | ⟨-, body, hdata, hscript⟩ | ⟨h5, -⟩ := script_shape (fieldsOf i)
    · exact absurd hop (not_or.mpr ⟨h3, h4⟩)
    · have hlen : scriptLength i = body.length + 2 := by
        rw [← script_fieldsOf_length hwf, hscript]
        simp
      rw [hlen] at hj ⊢
      rw [hcs, hscript]
      exact foldl_latchStep_take_frame hdata _ hpos hj
    · exact absurd hop (by simp [h5])
  · have hdata : DataOps (script (fieldsOf i)) := by
      obtain ⟨d, rfl⟩ | rfl := hbyte
      · exact dataOps_sendBits d
      · rw [fieldsOf, script_recvByte, recvByteScript_eq_slotOps]
        exact dataOps_slotOps 1
    rw [hcs, foldl_latchStep_of_dataOps (hdata.take j)]
    exact (h.idleLines hs.1).1

end Sys2Proof.Machine
end

section
/-! PROOFS. The end states of the five commands (spec/41_byte_framer.md R101 to R103, spec/42_register_sequencer.md
R121, R125, R128, spec/43_lifecycle.md R140). -/

namespace Sys2Proof.Machine

open Sys2Proof.Laws.EncodeFields (fieldsOf)

/-- A command accepted in a ready state ends in its completed block. -/
theorem exec_then_runMicro {s : State} (hs : s.Ready) {i : Instr} (hwf : i.WellFormed) (miso : Nat → Bool) {u : Block}
    (hu : s.block.completed (fieldsOf i) miso = u) :
    ∃ t, exec i s = .next t ∧ runMicro miso (scriptLength i) t.block = some u :=
  ⟨_, exec_of_ready hs hwf, by rw [← hu]; exact runMicro_acceptCommand_whole s.block hwf miso⟩

/-! ### Commands that do not receive -/

theorem completed_sendByte (b : Block) (d : Byte) (miso : Nat → Bool) :
    b.completed ⟨0x1#4, 0, 0, d⟩ miso =
      { completedBlock b ⟨0x1#4, 0, 0, d⟩ with sclkQ := false, mosiQ := d.getLsbD 0 } := by
  rw [Block.completed, script_sendByte, sendByteScript, performFrom_sendBits]
  rfl

/-- Settles O35: SEND_BYTE performs the sendBits of its byte. -/
theorem sendByteEndState : Obligations.SendByteEndState :=
  fun s d miso hs => exec_then_runMicro hs (i := .sendByte d) rfl miso (completed_sendByte s.block d miso)

theorem completed_writeReg (b : Block) (a : RegAddr) (d : Byte) (miso : Nat → Bool) :
    b.completed ⟨0x3#4, 0, a, d⟩ miso =
      { completedBlock b ⟨0x3#4, 0, a, d⟩ with csNQ := true, sclkQ := false, mosiQ := d.getLsbD 0 } := by
  rw [Block.completed, script_writeReg, writeRegScript_eq_frame]
  simp only [performFrom_append, performFrom_sendBits]
  rfl

/-- Settles O37: WRITE_REG performs the sendBits of its two bytes between its select operations. -/
theorem writeRegEndState : Obligations.WriteRegEndState :=
  fun s a d miso hs => exec_then_runMicro hs (i := .writeReg a d) rfl miso (completed_writeReg s.block a d miso)

/-- Settles O39: RELEASE performs REL. -/
theorem releaseEndState : Obligations.ReleaseEndState := by
  intro s miso hs
  obtain ⟨t, hexec, hrun⟩ := exec_then_runMicro hs (i := .release) rfl miso rfl
  exact ⟨t, _, hexec, hrun, rfl, pins_of_released rfl⟩

/-! ### Receiving commands -/

/-- Receiving some bytes: the clock ends low, SHREG holds the last byte, and the rest but the receive buffer stays. -/
theorem performFrom_slotOps_sides (miso : Nat → Bool) (i : Nat) (b : Block) {m : Nat} (hm : m ≤ 8) :
    (performFrom miso i (slotOps m) b).sendSide =
        ({ b with sclkQ := if m = 0 then b.sclkQ else false } : Block).sendSide ∧
      (performFrom miso i (slotOps m) b).shreg =
        if m = 0 then b.shreg else sampledByte miso (i + 1 + 24 * (m - 1)) := by
  induction m with
  | zero => exact ⟨rfl, rfl⟩
  | succ m ih =>
    have hm' := Nat.le_of_succ_le hm
    have hsplit : recvBits ⟨m, hm⟩ = (recvBits ⟨m, hm⟩).take 23 ++ [.clk false] := rfl
    rw [slotOps_succ ⟨m, hm⟩, performFrom_append, slotOps_length hm', hsplit, performFrom_append,
      performFrom_recvBits_take_23]
    obtain ⟨hsend, -⟩ := ih hm'
    refine ⟨?_, ?_⟩
    · have hlow := congrArg (fun c : Block => { c with sclkQ := false }) hsend
      exact hlow
    · show sampledByte miso (i + 24 * m + 1) = _
      rw [if_neg m.succ_ne_zero, Nat.add_right_comm, Nat.succ_sub_one]

/-- The receive buffer of a block that has received `m` whole bytes and no more. -/
theorem Block.HasReceived.receiveSide_eq {b : Block} {miso : Nat → Bool} {i m : Nat}
    (h : b.HasReceived miso i (24 * m)) (hm : m ≤ 8) :
    b.received = (Vector.ofFn fun k => if k.val < m then sampledByte miso (i + 1 + 24 * k.val) else 0,
      BitVec.ofNat 4 m) := by
  obtain ⟨hbuf, hcnt⟩ := h
  refine Prod.ext (Vector.ext fun k hk => ?_) (BitVec.eq_of_toNat_eq ?_)
  · rw [Vector.getElem_ofFn]
    exact (hbuf ⟨k, hk⟩).trans (if_congr (by show 22 + 24 * k < 24 * m ↔ k < m; omega) rfl rfl)
  · rw [BitVec.toNat_ofNat, Nat.mod_eq_of_lt (by omega)]
    exact hcnt.trans (by omega)

/-- A whole receive of `m` bytes from a cleared receive buffer. -/
theorem performFrom_slotOps {b : Block} {miso : Nat → Bool} {i m : Nat} (h : b.HasReceived miso i 0) (hm : m ≤ 8) :
    performFrom miso i (slotOps m) b =
      { b with
        sclkQ := if m = 0 then b.sclkQ else false
        shreg := if m = 0 then b.shreg else sampledByte miso (i + 1 + 24 * (m - 1))
        rxbuf := Vector.ofFn fun k => if k.val < m then sampledByte miso (i + 1 + 24 * k.val) else 0
        rxcnt := BitVec.ofNat 4 m } := by
  obtain ⟨hsend, hshreg⟩ := performFrom_slotOps_sides miso i b hm
  have hbuf := performFrom_slotOps_take h hm (Nat.le_refl (24 * m))
  rw [List.take_of_length_le (slotOps_length hm).le] at hbuf
  exact Block.eq_of_sides hsend (Prod.ext (hbuf.receiveSide_eq hm) hshreg)

theorem completed_recvByte (b : Block) (miso : Nat → Bool) :
    b.completed ⟨0x2#4, 0, 0, 0⟩ miso =
      { completedBlock b ⟨0x2#4, 0, 0, 0⟩ with
        sclkQ := false, shreg := sampledByte miso 1, rxcnt := 1,
        rxbuf := #v[sampledByte miso 1, 0, 0, 0, 0, 0, 0, 0] } := by
  have hclear : (b.acceptCommand ⟨0x2#4, 0, 0, 0⟩).HasReceived miso 0 0 :=
    b.clearDone.acceptReceive_hasReceived_zero ⟨0x2#4, 0, 0, 0⟩ miso 0
  rw [Block.completed, script_recvByte, recvByteScript_eq_slotOps, performFrom_slotOps hclear (by decide)]
  rfl

/-- Settles O36: RECV_BYTE performs the receive of slot 0. -/
theorem recvByteEndState : Obligations.RecvByteEndState :=
  fun s miso hs => exec_then_runMicro hs (i := .recvByte) rfl miso (completed_recvByte s.block miso)

theorem performFrom_frame (miso : Nat → Bool) (i : Nat) (body : List MicroOp) (b : Block) :
    performFrom miso i ([.cs false] ++ body ++ [.cs true]) b =
      { performFrom miso (i + 1) body { b with csNQ := false } with csNQ := true } := by
  rw [performFrom_append, performFrom_append]
  rfl

theorem completed_readRegs (b : Block) (a : RegAddr) {n : Nibble} (miso : Nat → Bool) (hn : n.toNat ≤ 8) :
    b.completed ⟨0x4#4, n, a, 0⟩ miso =
      { completedBlock b ⟨0x4#4, n, a, 0⟩ with
        csNQ := true, sclkQ := false, mosiQ := a.getLsbD 0, rxcnt := n,
        rxbuf := Vector.ofFn fun k => if k.val < n.toNat then sampledByte miso (26 + 24 * k.val) else 0
        shreg := if n = 0 then b.shreg else sampledByte miso (26 + 24 * (n.toNat - 1)) } := by
  have hclear : ({ b.acceptCommand ⟨0x4#4, n, a, 0⟩ with
      csNQ := false, sclkQ := false, mosiQ := (readAddressByte a).getLsbD 0 } : Block).HasReceived miso 25 0 :=
    (b.clearDone.acceptReceive_hasReceived_zero ⟨0x4#4, n, a, 0⟩ miso 25).of_received rfl
  have hmosi : (readAddressByte a).getLsbD 0 = a.getLsbD 0 := by simp [readAddressByte]
  have hcnt : BitVec.ofNat 4 n.toNat = n := by simp
  have hshreg (x y : Byte) : (if n.toNat = 0 then x else y) = if n = 0 then x else y :=
    if_congr (by simp [← BitVec.toNat_inj]) rfl rfl
  have hlow : (if n.toNat = 0 then false else false) = false := ite_self _
  have hslots := performFrom_slotOps hclear hn
  rw [hcnt, hshreg, hlow, hmosi] at hslots
  rw [Block.completed, script_readRegs, readRegsScript_eq_frame, performFrom_frame, performFrom_append,
    performFrom_sendBits, sendBits_length]
  show ({ performFrom miso 25 (slotOps n.toNat) _ with
    csNQ := true, busy := false, done := true, upc := 0, tick := 0 } : Block) = _
  rw [hmosi, hslots]
  rfl

/-- Settles O38: READ_REGS performs the sendBits of its address byte and the receives of its slots between its select
operations. -/
theorem readRegsEndState : Obligations.ReadRegsEndState :=
  fun s a n miso hs hn =>
    exec_then_runMicro hs (i := .readRegs a n) (decide_eq_true hn) miso (completed_readRegs s.block a miso hn)

end Sys2Proof.Machine
end

section
/-! PROOFS. What a slave on the pins reads from the commands (spec/41_byte_framer.md R105, R108,
spec/42_register_sequencer.md R130, R131). -/

namespace Sys2Proof.Machine

open Sys2Proof.Laws.EncodeFields (fieldsOf)

/-! ### The pins over micro-operations -/

/-- The pins of driven latches. -/
def drivenPins (latches : Bool × Bool × Bool) : Pins :=
  ⟨drivenLevel latches.1, drivenLevel latches.2.1, drivenLevel latches.2.2⟩

theorem pins_eq_drivenPins {b : Block} (h : b.released = false) : pins b = drivenPins b.outputLatches :=
  pins_of_owned h

@[simp] theorem drivenLevel_eq_high (v : Bool) : (drivenLevel v == .high) = v := by
  cases v <;> rfl

@[simp] theorem drivenLevel_eq_low (v : Bool) : (drivenLevel v == .low) = !v := by
  cases v <;> rfl

/-- The pins before and after each of some micro-operations, while the lines are owned. -/
def pinsOver (latches : Bool × Bool × Bool) : List MicroOp → List Pins
  | [] => [drivenPins latches]
  | op :: ops => drivenPins latches :: pinsOver (latchStep latches op) ops

theorem pinsOver_length (latches : Bool × Bool × Bool) (ops : List MicroOp) :
    (pinsOver latches ops).length = ops.length + 1 := by
  induction ops generalizing latches with
  | nil => rfl
  | cons op ops ih => rw [pinsOver, List.length_cons, ih, List.length_cons]

theorem csN_of_mem_pinsOver {ops : List MicroOp} (h : DataOps ops) {latches : Bool × Bool × Bool} {p : Pins}
    (hp : p ∈ pinsOver latches ops) : p.csN = drivenLevel latches.1 := by
  induction ops generalizing latches with
  | nil =>
    obtain rfl := List.mem_singleton.mp hp
    rfl
  | cons op ops ih =>
    obtain ⟨hop, hops⟩ := List.forall_mem_cons.mp h
    obtain rfl | hp := List.mem_cons.mp hp
    · rfl
    · rw [ih hops hp, ← foldl_latchStep_of_dataOps (ops := [op]) (by simpa [DataOps] using hop) latches]
      rfl

/-- The MOSI level at each falling edge of SCLK over some micro-operations, while the pins after it are as `keep`
says. -/
def bitsOver (keep : Pins → Bool) (latches : Bool × Bool × Bool) : List MicroOp → List Level
  | [] => []
  | op :: ops =>
    let next := latchStep latches op
    (if sclkFalls (drivenPins latches) (drivenPins next) && keep (drivenPins next) then [drivenLevel next.2.2]
      else []) ++
      bitsOver keep next ops

/-- A slave selected by CS_N (R131). -/
def selectedPins (p : Pins) : Bool := p.csN == .low

theorem bitsOver_append (keep : Pins → Bool) (latches : Bool × Bool × Bool) (ops ops' : List MicroOp) :
    bitsOver keep latches (ops ++ ops') =
      bitsOver keep latches ops ++ bitsOver keep (ops.foldl latchStep latches) ops' := by
  induction ops generalizing latches with
  | nil => rfl
  | cons op ops ih => simp only [List.cons_append, bitsOver, ih, List.append_assoc, List.foldl_cons]

theorem pinsOver_eq_cons (latches : Bool × Bool × Bool) (ops : List MicroOp) :
    ∃ rest, pinsOver latches ops = drivenPins latches :: rest := by
  cases ops <;> exact ⟨_, rfl⟩

theorem fallingBits_pinsOver (latches : Bool × Bool × Bool) (ops : List MicroOp) :
    fallingBits (pinsOver latches ops) = bitsOver (fun _ => true) latches ops := by
  induction ops generalizing latches with
  | nil => rfl
  | cons op ops ih =>
    obtain ⟨rest, hrest⟩ := pinsOver_eq_cons (latchStep latches op) ops
    rw [bitsOver, ← ih, pinsOver, hrest, fallingBits, Bool.and_true]
    split <;> rfl

theorem selectedBits_pinsOver (latches : Bool × Bool × Bool) (ops : List MicroOp) :
    selectedBits (pinsOver latches ops) = bitsOver selectedPins latches ops := by
  induction ops generalizing latches with
  | nil => rfl
  | cons op ops ih =>
    obtain ⟨rest, hrest⟩ := pinsOver_eq_cons (latchStep latches op) ops
    rw [bitsOver, ← ih, pinsOver, hrest, selectedBits]
    cases hread : sclkFalls (drivenPins latches) (drivenPins (latchStep latches op)) &&
        selectedPins (drivenPins (latchStep latches op)) with
    | false => exact if_neg (Bool.eq_false_iff.mp hread)
    | true => exact if_pos hread

/-! ### The bits of a byte sent and received -/

section
variable {keep : Pins → Bool} {c kept : Bool} (hkeep : ∀ clock mosi, keep (drivenPins (c, clock, mosi)) = kept)
include hkeep

/-- One transmitted bit is read at its falling edge. -/
theorem bitsOver_sendBit (v mosi : Bool) :
    bitsOver keep (c, false, mosi) (sendBit v) = if kept then [drivenLevel v] else [] := by
  simp [sendBit, bitsOver, latchStep, sclkFalls, drivenPins, ← hkeep false v]

theorem bitsOver_sendBit_flatMap (bits : List Bool) (mosi : Bool) :
    bitsOver keep (c, false, mosi) (bits.flatMap sendBit) = if kept then bits.map drivenLevel else [] := by
  induction bits generalizing mosi with
  | nil => simp [bitsOver]
  | cons v bits ih =>
    rw [List.flatMap_cons, bitsOver_append, bitsOver_sendBit hkeep]
    exact (congrArg _ (ih v)).trans (by cases kept <;> rfl)

/-- A transmitted byte is read bit by bit in wire order (R105). -/
theorem bitsOver_sendBits (v : Byte) (mosi : Bool) :
    bitsOver keep (c, false, mosi) (sendBits v) = if kept then (wireBits v).map drivenLevel else [] :=
  bitsOver_sendBit_flatMap hkeep (wireBits v) mosi

/-- While a byte is received, the slave reads the held MOSI level eight times (R131). -/
theorem bitsOver_recvBits (k : Fin 8) (mosi : Bool) :
    bitsOver keep (c, false, mosi) (recvBits k) = if kept then List.replicate 8 (drivenLevel mosi) else [] := by
  have h := hkeep false mosi
  cases kept <;> simp_all [recvBits, recvBit, bitsOver, latchStep, sclkFalls, drivenPins, List.replicate]

end

theorem foldl_latchStep_sendBits (v : Byte) (latches : Bool × Bool × Bool) :
    (sendBits v).foldl latchStep latches = (latches.1, false, v.getLsbD 0) := by
  simp [sendBits, wireBits, sendBit, latchStep]

theorem foldl_latchStep_recvBits (k : Fin 8) (latches : Bool × Bool × Bool) :
    (recvBits k).foldl latchStep latches = (latches.1, false, latches.2.2) := by
  simp [recvBits, recvBit, latchStep]

theorem foldl_latchStep_slotOps (c mosi : Bool) {m : Nat} (hm : m ≤ 8) :
    (slotOps m).foldl latchStep (c, false, mosi) = (c, false, mosi) := by
  induction m with
  | zero => rfl
  | succ m ih =>
    rw [slotOps_succ ⟨m, hm⟩, List.foldl_append, ih (Nat.le_of_succ_le hm), foldl_latchStep_recvBits]

theorem bitsOver_slotOps {keep : Pins → Bool} {c kept : Bool}
    (hkeep : ∀ clock mosi, keep (drivenPins (c, clock, mosi)) = kept) (mosi : Bool) {m : Nat} (hm : m ≤ 8) :
    bitsOver keep (c, false, mosi) (slotOps m) = if kept then List.replicate (8 * m) (drivenLevel mosi) else [] := by
  induction m with
  | zero => cases kept <;> rfl
  | succ m ih =>
    have hm' := Nat.le_of_succ_le hm
    rw [slotOps_succ ⟨m, hm⟩, bitsOver_append, ih hm', foldl_latchStep_slotOps _ _ hm', bitsOver_recvBits hkeep]
    cases kept with
    | false => rfl
    | true => exact List.replicate_append_replicate

/-! ### The bits of a whole command -/

theorem selectedPins_drivenPins (c clock mosi : Bool) : selectedPins (drivenPins (c, clock, mosi)) = !c :=
  drivenLevel_eq_low c

/-- SEND_BYTE shows its byte at the falling edges, but not to a slave that is not selected (R105, R130). -/
theorem bitsOver_sendByteScript (d : Byte) (mosi : Bool) :
    bitsOver (fun _ => true) (true, false, mosi) (sendByteScript d) = (wireBits d).map drivenLevel ∧
      bitsOver selectedPins (true, false, mosi) (sendByteScript d) = [] :=
  ⟨bitsOver_sendBits (kept := true) (fun _ _ => rfl) d mosi, bitsOver_sendBits (selectedPins_drivenPins true) d mosi⟩

theorem bitsOver_recvByteScript (mosi : Bool) : bitsOver selectedPins (true, false, mosi) recvByteScript = [] := by
  rw [recvByteScript_eq_slotOps]
  exact bitsOver_slotOps (selectedPins_drivenPins true) mosi (by decide)

/-- The select operations of a frame show the slave nothing of their own. -/
theorem bitsOver_frame (body : List MicroOp) (mosi : Bool) :
    bitsOver selectedPins (true, false, mosi) ([.cs false] ++ body ++ [.cs true]) =
      bitsOver selectedPins (false, false, mosi) body := by
  have hlast (latches : Bool × Bool × Bool) : bitsOver selectedPins latches [.cs true] = [] := by
    simp [bitsOver, latchStep, selectedPins, drivenPins]
  rw [bitsOver_append, hlast, List.append_nil, bitsOver_append]
  simp [bitsOver, latchStep, sclkFalls, drivenPins]

/-- The slave reads the two bytes of a WRITE_REG (R131). -/
theorem bitsOver_writeRegScript (a : RegAddr) (d : Byte) (mosi : Bool) :
    bitsOver selectedPins (true, false, mosi) (writeRegScript a d) =
      (wireBits (writeAddressByte a) ++ wireBits d).map drivenLevel := by
  rw [writeRegScript_eq_frame, bitsOver_frame, bitsOver_append, foldl_latchStep_sendBits,
    bitsOver_sendBits (selectedPins_drivenPins false), bitsOver_sendBits (selectedPins_drivenPins false),
    List.map_append]
  rfl

/-- The slave reads the address byte of a READ_REGS and then the held MOSI level (R131). -/
theorem bitsOver_readRegsScript (a : RegAddr) {n : Nibble} (hn : n.toNat ≤ 8) (mosi : Bool) :
    bitsOver selectedPins (true, false, mosi) (readRegsScript a n) =
      (wireBits (readAddressByte a) ++ List.replicate (8 * n.toNat) (a.getLsbD 0)).map drivenLevel := by
  have hmosi : (readAddressByte a).getLsbD 0 = a.getLsbD 0 := by simp [readAddressByte]
  rw [readRegsScript_eq_frame, bitsOver_frame, bitsOver_append, foldl_latchStep_sendBits,
    bitsOver_sendBits (selectedPins_drivenPins false), bitsOver_slotOps (selectedPins_drivenPins false) _ hn,
    List.map_append, List.map_replicate, hmosi]
  rfl

/-! ### The pins over the run of an accepted command -/

/-- A trace lists the blocks of the runs of each length. -/
theorem microTrace_eq_map {miso : Nat → Bool} {n : Nat} {b : Block} {f : Nat → Block}
    (h : ∀ j ≤ n, runMicro miso j b = some (f j)) : microTrace miso n b = (List.range (n + 1)).map f := by
  induction n generalizing miso b f with
  | zero =>
    obtain rfl : b = f 0 := Option.some.inj (h 0 (Nat.le_refl 0))
    rfl
  | succ n ih =>
    have h0 : b = f 0 := Option.some.inj (h 0 (Nat.zero_le _))
    have hmicro : b.microStep (miso 0) = some (f 1) := by simpa [runMicro] using h 1 (by omega)
    have hrest := ih (miso := fun j => miso (j + 1)) (b := f 1) (f := fun j => f (j + 1)) fun j hj => by
      simpa [runMicro, hmicro] using h (j + 1) (by omega)
    rw [microTrace, hmicro, List.range_succ_eq_map, List.map_cons, List.map_map, ← h0]
    exact congrArg _ hrest

/-- The pins after each number of some micro-operations. -/
theorem map_drivenPins_take (latches : Bool × Bool × Bool) (ops : List MicroOp) :
    ((List.range (ops.length + 1)).map fun j => drivenPins ((ops.take j).foldl latchStep latches)) =
      pinsOver latches ops := by
  induction ops generalizing latches with
  | nil => rfl
  | cons op ops ih =>
    rw [List.length_cons, List.range_succ_eq_map, List.map_cons, List.map_map, pinsOver, ← ih]
    rfl

/-- The pins over the run of an accepted command that keeps the lines are those that its script makes. -/
theorem pinTrace_acceptCommand {b : Block} (hreleased : b.released = false) {i : Instr} (hwf : i.WellFormed)
    (hi : i ≠ .release) (miso : Nat → Bool) :
    pinTrace miso (scriptLength i) (b.acceptCommand (fieldsOf i)) = pinsOver b.outputLatches (script (fieldsOf i)) := by
  have hop : (fieldsOf i).op ≠ 0x5#4 := by cases i <;> simp_all [fieldsOf]
  have hrun (j : Nat) (hj : j ≤ scriptLength i) :
      ∃ c, runMicro miso j (b.acceptCommand (fieldsOf i)) = some c ∧
        pins c = drivenPins (((script (fieldsOf i)).take j).foldl latchStep b.outputLatches) := by
    obtain ⟨c, hc, hlatches, hrel⟩ := runMicro_acceptCommand b hwf miso hj
    exact ⟨c, hc, by rw [pins_eq_drivenPins ((hrel (rel_not_mem_script hop)).trans hreleased), hlatches]⟩
  have htrace := microTrace_eq_map (miso := miso) (n := scriptLength i) (b := b.acceptCommand (fieldsOf i))
    (f := fun j => (runMicro miso j (b.acceptCommand (fieldsOf i))).getD b) fun j hj => by
      obtain ⟨c, hc, -⟩ := hrun j hj
      rw [hc, Option.getD_some]
  rw [pinTrace, htrace, List.map_map, ← map_drivenPins_take, script_fieldsOf_length hwf]
  refine List.map_congr_left fun j hj => ?_
  obtain ⟨c, hc, hpins⟩ := hrun j (Nat.lt_succ_iff.mp (List.mem_range.mp hj))
  rw [← hpins, Function.comp_apply, hc, Option.getD_some]

/-- The latches of a block of the invariant between commands: select and clock idle (R40). -/
theorem Block.Inv.outputLatches_eq {p : Config.Params} {b : Block} (h : b.Inv p) (hbusy : b.busy = false) :
    b.outputLatches = (true, false, b.mosiQ) := by
  obtain ⟨hcs, hclk⟩ := h.idleLines hbusy
  rw [Block.outputLatches, hcs, hclk]

/-- The pins over a command accepted in a ready state of the invariant, RELEASE apart. -/
theorem pinTrace_of_exec {s t : State} {i : Instr} (h : s.Inv) (hs : s.Ready) (hwf : i.WellFormed) (hi : i ≠ .release)
    (hexec : exec i s = .next t) (miso : Nat → Bool) :
    pinTrace miso (scriptLength i) t.block = pinsOver (true, false, s.block.mosiQ) (script (fieldsOf i)) := by
  cases hexec.symm.trans (exec_of_ready hs hwf)
  rw [← h.outputLatches_eq hs.1]
  exact pinTrace_acceptCommand hs.2 hwf hi miso

/-- Settles O42: the pins of SEND_BYTE are those that its script makes from the idle lines. -/
theorem sendByteOnTheWire : Obligations.SendByteOnTheWire := by
  intro s t d miso h hs hexec
  obtain ⟨hfall, hsel⟩ := bitsOver_sendByteScript d s.block.mosiQ
  have htrace : pinTrace miso 24 t.block = pinsOver (true, false, s.block.mosiQ) (sendByteScript d) :=
    pinTrace_of_exec h hs (i := .sendByte d) rfl (by simp) hexec miso
  rw [htrace]
  refine ⟨(fallingBits_pinsOver _ _).trans hfall, (selectedBits_pinsOver _ _).trans hsel, ?_, fun p hp => ?_⟩
  · rw [pinsOver_length, sendByteScript_length]
  · exact csN_of_mem_pinsOver (dataOps_sendBits d) hp

/-- Settles O43: the pins of the register commands are those that their scripts make from the idle lines. -/
theorem registerCommandsOnTheWire : Obligations.RegisterCommandsOnTheWire := by
  refine ⟨fun s t a d miso h hs hexec => ?_, fun s t a n miso h hs hn hexec => ?_⟩
  · have htrace := pinTrace_of_exec h hs (i := .writeReg a d) rfl (by simp) hexec miso
    exact (congrArg selectedBits htrace).trans
      ((selectedBits_pinsOver _ _).trans (bitsOver_writeRegScript a d s.block.mosiQ))
  · have htrace := pinTrace_of_exec h hs (i := .readRegs a n) (decide_eq_true hn) (by simp) hexec miso
    exact (congrArg selectedBits htrace).trans
      ((selectedBits_pinsOver _ _).trans (bitsOver_readRegsScript a hn s.block.mosiQ))

/-! ### Bytes on the wire and back (R53, R109) -/

/-- The eight bits of a byte, most-significant first, make it. -/
theorem byteOfSamples_getLsbD (v : Byte) :
    byteOfSamples (v.getLsbD 7) (v.getLsbD 6) (v.getLsbD 5) (v.getLsbD 4) (v.getLsbD 3) (v.getLsbD 2) (v.getLsbD 1)
      (v.getLsbD 0) = v := by
  rw [← shiftIn_eight 0]
  refine BitVec.eq_of_getLsbD_eq fun i hi => ?_
  simp only [List.foldl_cons, List.foldl_nil, shiftIn_getLsbD]
  interval_cases i <;> simp

/-- The byte of eight samples that are given one by one. -/
theorem sampledByte_eq_byteOfSamples {miso : Nat → Bool} {start : Nat} {f : Nat → Bool}
    (h : ∀ j < 8, miso (start + 3 * j) = f j) :
    sampledByte miso start = byteOfSamples (f 0) (f 1) (f 2) (f 3) (f 4) (f 5) (f 6) (f 7) := by
  rw [← h 0 (by decide), ← h 1 (by decide), ← h 2 (by decide), ← h 3 (by decide), ← h 4 (by decide),
    ← h 5 (by decide), ← h 6 (by decide), ← h 7 (by decide)]
  rfl

/-- The samples of a receive that are the bits of a byte in wire order make it. -/
theorem sampledByte_eq {miso : Nat → Bool} {start : Nat} {v : Byte}
    (h : ∀ j < 8, miso (start + 3 * j) = v.getLsbD (7 - j)) : sampledByte miso start = v :=
  (sampledByte_eq_byteOfSamples h).trans (byteOfSamples_getLsbD v)

/-! ### Loopback (R108) -/

/-- A course of MISO with one more level before it. -/
def courseCons (m : Bool) (miso : Nat → Bool) : Nat → Bool
  | 0 => m
  | j + 1 => miso j

/-- A wired run is a run on the course of its own MOSI levels. -/
theorem exists_course_of_runWired (n : Nat) (b : Block) :
    ∃ miso : Nat → Bool, runWired n b = runMicro miso n b ∧
      ∀ j < n, ∀ c, runMicro miso j b = some c → miso j = c.mosiQ := by
  induction n generalizing b with
  | zero => exact ⟨fun _ => false, rfl, fun j hj => absurd hj (Nat.not_lt_zero j)⟩
  | succ n ih =>
    cases hmicro : b.microStep b.mosiQ with
    | none =>
      refine ⟨fun _ => b.mosiQ, by simp [runWired, runMicro, hmicro], fun j _ c hc => ?_⟩
      cases j with
      | zero =>
        cases hc
        rfl
      | succ j => simp [runMicro, hmicro] at hc
    | some b' =>
      obtain ⟨miso, hrun, hlevels⟩ := ih b'
      refine ⟨courseCons b.mosiQ miso, by simpa [runWired, runMicro, hmicro, courseCons] using hrun,
        fun j hj c hc => ?_⟩
      cases j with
      | zero =>
        cases hc
        rfl
      | succ j => exact hlevels j (Nat.lt_of_succ_lt_succ hj) c (by simpa [runMicro, hmicro, courseCons] using hc)

/-- Without a DOUT the MOSI latch stays. -/
theorem foldl_latchStep_mosi {ops : List MicroOp} (h : ∀ v, MicroOp.dout v ∉ ops) (latches : Bool × Bool × Bool) :
    (ops.foldl latchStep latches).2.2 = latches.2.2 := by
  induction ops generalizing latches with
  | nil => rfl
  | cons op ops ih =>
    rw [List.foldl_cons, ih fun v hv => h v (List.mem_cons_of_mem op hv)]
    cases op with
    | dout v => exact absurd List.mem_cons_self (h v)
    | cs v => rfl
    | clk v => rfl
    | sample k last => rfl
    | rel => rfl

/-- With MOSI wired to MISO a RECV_BYTE samples the held MOSI level eight times. -/
theorem sampledByte_of_wired {b : Block} {miso : Nat → Bool}
    (h : ∀ j < 24, ∀ c, runMicro miso j (b.acceptCommand (fieldsOf .recvByte)) = some c → miso j = c.mosiQ) :
    sampledByte miso 1 = if b.mosiQ then 0xFF#8 else 0x00#8 := by
  have hlevel (j : Nat) (hj : j < 24) : miso j = b.mosiQ := by
    obtain ⟨c, hrun, hlatches, -⟩ := runMicro_acceptCommand b (i := .recvByte) rfl miso hj.le
    have hdout (v : Bool) : MicroOp.dout v ∉ (script (fieldsOf .recvByte)).take j := fun hv => by
      have := List.mem_of_mem_take hv
      simp [fieldsOf, script_recvByte, recvByteScript, recvBits, recvBit] at this
    have hmosi := foldl_latchStep_mosi hdout b.outputLatches
    rw [← hlatches] at hmosi
    exact (h j hj c hrun).trans hmosi
  simp only [sampledByte, hlevel, Nat.reduceAdd, Nat.reduceLT]
  cases b.mosiQ <;> rfl

/-- Settles O44: SEND_BYTE ends with V[0] on MOSI, whatever its MISO; RECV_BYTE then samples that level, or the
harness's. -/
theorem loopbackReceivesTheLastBitAndReplayTheByte : Obligations.LoopbackReceivesTheLastBitAndReplayTheByte := by
  intro s t t' b c v hs hsend hwired hrecv
  cases hsend.symm.trans (exec_of_ready hs rfl)
  obtain ⟨miso, hrun, -⟩ := exists_course_of_runWired 24 (s.block.acceptCommand (fieldsOf (.sendByte v)))
  have hb : b = s.block.completed (fieldsOf (.sendByte v)) miso :=
    Option.some.inj (hwired.symm.trans (hrun.trans (runMicro_acceptCommand_whole s.block (i := .sendByte v) rfl miso)))
  rw [fieldsOf, completed_sendByte] at hb
  have hready : State.Ready { s with block := b } := hb ▸ ⟨rfl, hs.2⟩
  have hmosi : b.mosiQ = v.getLsbD 0 := by rw [hb]
  cases hrecv.symm.trans (exec_of_ready hready rfl)
  have hend (course : Nat → Bool) : ∃ u, runMicro course 24 (b.acceptCommand (fieldsOf .recvByte)) = some u ∧
      u.rxbuf[0] = sampledByte course 1 :=
    ⟨_, runMicro_acceptCommand_whole b (i := .recvByte) rfl course, by rw [fieldsOf, completed_recvByte]; rfl⟩
  refine ⟨fun hc => ?_, fun course hcourse => ?_⟩
  · obtain ⟨course, hcourse, hlevels⟩ := exists_course_of_runWired 24 (b.acceptCommand (fieldsOf .recvByte))
    obtain ⟨u, hu, hbyte⟩ := hend course
    obtain rfl : c = u := Option.some.inj (hc.symm.trans (hcourse.trans hu))
    rw [hbyte, sampledByte_of_wired hlevels, hmosi]
  · obtain ⟨u, hu, hbyte⟩ := hend course
    refine ⟨u, hu, hbyte.trans (sampledByte_eq fun j hj => ?_)⟩
    rw [Nat.add_comm]
    exact hcourse j hj

/-! ### The echo slave (R176) -/

theorem byteOfLevels_wireBits (v : Byte) : Attached.byteOfLevels ((wireBits v).map drivenLevel) = v := by
  rw [Attached.byteOfLevels, List.foldl_map]
  simp only [drivenLevel_eq_high]
  exact (shiftIn_eight 0 _ _ _ _ _ _ _ _).trans (byteOfSamples_getLsbD v)

@[simp] theorem wireBits_length (v : Byte) : (wireBits v).length = 8 := rfl

theorem wireBits_getD (v : Byte) {j : Nat} (hj : j < 8) : (wireBits v).getD j false = v.getLsbD (7 - j) := by
  rw [wireBits_eq_map_range, List.getD_eq_getElem _ _ (by simpa using hj), List.getElem_map, List.getElem_range]

/-- Two bytes on the wire, taken apart again. -/
theorem take_drop_wireBits (v : Byte) (bits : List Bool) :
    ((wireBits v ++ bits).map drivenLevel).take 8 = (wireBits v).map drivenLevel ∧
      ((wireBits v ++ bits).map drivenLevel).drop 8 = bits.map drivenLevel := by
  rw [List.map_append]
  exact ⟨List.take_left' (by simp), List.drop_left' (by simp)⟩

theorem writeAddressByte_getLsbD_7 (a : RegAddr) : (writeAddressByte a).getLsbD 7 = true := by
  simp [writeAddressByte, Config.writeFlag]

theorem readAddressByte_getLsbD_7 (a : RegAddr) : (readAddressByte a).getLsbD 7 = false := by
  simp [readAddressByte]

theorem writeAddressByte_toNat_mod (a : RegAddr) : (writeAddressByte a).toNat % 64 = a.toNat := by
  have h : (writeAddressByte a).setWidth 6 = a := by
    rw [writeAddressByte, BitVec.setWidth_or, BitVec.setWidth_setWidth_of_le _ (by decide), BitVec.setWidth_eq]
    exact BitVec.zero_or
  rw [← congrArg BitVec.toNat h, BitVec.toNat_setWidth]

/-- An echo slave that hears the bits of a WRITE_REG has the byte in the register. -/
theorem hear_writeReg (regs : Vector Byte 64) (a : RegAddr) (d : Byte) :
    (Attached.EchoSlave.holding regs).hear .completed ((wireBits (writeAddressByte a) ++ wireBits d).map drivenLevel) =
      .holding (regs.set a.toNat d a.isLt) := by
  obtain ⟨htake, hdrop⟩ := take_drop_wireBits (writeAddressByte a) (wireBits d)
  have hwhole : Attached.wholeWrite ((wireBits (writeAddressByte a) ++ wireBits d).map drivenLevel) = true := by
    simp only [Attached.wholeWrite, htake, byteOfLevels_wireBits, writeAddressByte_getLsbD_7]
    simp
  obtain ⟨-, hhear⟩ | ⟨hno, -⟩ | ⟨hno, -⟩ := Attached.EchoSlave.hear_completed_cases regs
    ((wireBits (writeAddressByte a) ++ wireBits d).map drivenLevel)
  · rw [hhear]
    simp only [htake, hdrop, byteOfLevels_wireBits, writeAddressByte_toNat_mod]
  · exact absurd (hwhole.symm.trans hno) (by decide)
  · exact absurd (hwhole.symm.trans hno) (by decide)

/-- An echo slave that hears the bits of a READ_REGS keeps its registers. -/
theorem hear_readRegs (regs : Vector Byte 64) (a : RegAddr) (n : Nat) (x : Bool) :
    (Attached.EchoSlave.holding regs).hear .completed
      ((wireBits (readAddressByte a) ++ List.replicate (8 * n) x).map drivenLevel) = .holding regs := by
  obtain ⟨htake, -⟩ := take_drop_wireBits (readAddressByte a) (List.replicate (8 * n) x)
  have hnot : Attached.wholeWrite ((wireBits (readAddressByte a) ++ List.replicate (8 * n) x).map drivenLevel) =
      false := by
    simp only [Attached.wholeWrite, htake, byteOfLevels_wireBits, readAddressByte_getLsbD_7, Bool.and_false]
  have hwhole : Attached.wholeRead ((wireBits (readAddressByte a) ++ List.replicate (8 * n) x).map drivenLevel) =
      true := by
    simp only [Attached.wholeRead, htake, byteOfLevels_wireBits, readAddressByte_getLsbD_7]
    simp
  obtain ⟨hyes, -⟩ | ⟨-, -, hhear⟩ | ⟨-, hno, -⟩ := Attached.EchoSlave.hear_completed_cases regs
    ((wireBits (readAddressByte a) ++ List.replicate (8 * n) x).map drivenLevel)
  · exact absurd (hnot.symm.trans hyes) (by decide)
  · exact hhear
  · exact absurd (hwhole.symm.trans hno) (by decide)

theorem levels_holding_one (regs : Vector Byte 64) (a : RegAddr) :
    (Attached.EchoSlave.holding regs).levels a 1 = wireBits (regs[a.toNat]'a.isLt) := by
  have ha : a.toNat % 64 = a.toNat := Nat.mod_eq_of_lt a.isLt
  simp [Attached.EchoSlave.levels, ha]

/-- Settles O45: the slave hears the WRITE_REG on the wire, and the READ_REGS samples the byte it then holds. -/
theorem writeThenReadbackWithTheEchoSlave : Obligations.WriteThenReadbackWithTheEchoSlave := by
  intro s t t' b a d regs e' miso miso' h hs hwrite hrun he' hread hlevels
  rw [registerCommandsOnTheWire.1 s t a d miso h hs hwrite] at he'
  replace he' := he'.trans (hear_writeReg regs a d)
  obtain ⟨_, hexec, hmicro⟩ := writeRegEndState s a d miso hs
  cases hwrite.symm.trans hexec
  have hb := Option.some.inj (hrun.symm.trans hmicro)
  have hready : State.Ready { t with block := b } := hb ▸ ⟨rfl, hs.2⟩
  obtain ⟨_, hexec', hmicro'⟩ := readRegsEndState { t with block := b } a 1 miso' hready (by decide)
  cases hread.symm.trans hexec'
  refine ⟨_, hmicro', ?_⟩
  have hbyte : sampledByte miso' 26 = d := sampledByte_eq fun j hj => by
    rw [hlevels j hj, he', levels_holding_one, Vector.getElem_set_self, wireBits_getD d hj]
  simpa using hbyte

end Sys2Proof.Machine
end

section
/-! PROOFS. A command over the clock edges (spec/40_line_ops.md R97, spec/70_reset_and_hazards.md R191): from its
acceptance to its completion, whatever the host presents but a reset. -/

namespace Sys2Proof.Machine

open Sys2Proof.Laws.EncodeFields (fieldsOf)

/-! ### Micro-steps beside the flags and the timer -/

/-- No micro-step reads or writes TICK, ERR or ERRCODE but for the TICK it clears. -/
theorem perform_advance_setFlags {b c : Block} {k : Nat} {e : Bool} {x : BitVec 3}
    (h : c = { b with tick := k, err := e, errcode := x }) (op : MicroOp) (m : Bool) :
    (perform op m c).advance = { (perform op m b).advance with tick := k, err := e, errcode := x } := by
  subst h
  have hperform : perform op m { b with tick := k, err := e, errcode := x } =
      { perform op m b with tick := k, err := e, errcode := x } := by
    cases op with
    | sample k last => cases last <;> rfl
    | cs v => rfl
    | clk v => rfl
    | dout v => rfl
    | rel => rfl
  rw [hperform]
  unfold Block.advance
  by_cases hlast : (perform op m b).upc.toNat + 1 = (script (perform op m b).latch).length
  · exact (if_pos hlast).trans (by rw [if_pos hlast]; rfl)
  · exact (if_neg hlast).trans (by rw [if_neg hlast])

theorem performFrom_keeps (miso : Nat → Bool) (i : Nat) (ops : List MicroOp) (b : Block) :
    (performFrom miso i ops b).busy = b.busy ∧ (performFrom miso i ops b).done = b.done ∧
      (performFrom miso i ops b).err = b.err ∧ (performFrom miso i ops b).errcode = b.errcode := by
  induction ops generalizing i b with
  | nil => exact ⟨rfl, rfl, rfl, rfl⟩
  | cons op ops ih =>
    obtain ⟨hbusy, hdone, herr, hcode, -⟩ := perform_keeps op (miso i) b
    rw [performFrom_cons, ← hbusy, ← hdone, ← herr, ← hcode]
    exact ih (i + 1) _

/-- The block once `j` micro-steps of a script are over, the completion after the last one included. -/
def Block.afterMicro (b : Block) (miso : Nat → Bool) (j : Nat) : Block :=
  if j < (script b.latch).length then b.afterOps miso j else (b.afterOps miso j).complete

/-- The micro-step after `j` micro-operations of a script. -/
theorem perform_advance_afterOps {b : Block} {op : MicroOp} {j : Nat} (hop : (script b.latch)[j]? = some op)
    (miso : Nat → Bool) :
    ({ (perform op (miso j) (b.afterOps miso j)).advance with tick := 0 } : Block) = b.afterMicro miso (j + 1) := by
  obtain ⟨hj, -⟩ := List.getElem?_eq_some_iff.mp hop
  have hdue : (b.afterOps miso j).dueOp = some op := by
    rw [Block.dueOp, Block.afterOps_latch, Block.afterOps_upc hj, hop]
  obtain ⟨hmore, hlast⟩ := Block.microStep_afterOps hj miso
  rw [Block.microStep_of_due hdue, Option.some_inj] at hmore hlast
  unfold Block.afterMicro
  split
  next h => exact hmore h
  next h => exact hlast (by omega)

/-! ### The ports of a host that presents no reset -/

theorem noReset.noResetNext {s : State} (h : noReset s.port) : s.NoResetNext := by
  unfold State.NoResetNext State.edgeInput
  cases hport : s.port with
  | nil => simp
  | cons e rest =>
    rintro a rfl
    exact h a (hport ▸ List.mem_cons_self)

theorem noReset.portAfter {s : State} (h : noReset s.port) : noReset s.portAfter := by
  have hsub : s.portAfter ⊆ s.port := by
    unfold State.portAfter
    split
    · simp
    · split <;> simp_all
    · simp_all
  exact fun a ha => h a (hsub ha)

/-- A host that presents nothing writes nothing. -/
theorem State.BusyHost.eq_of_port_nil {s : State} {b : Block} (h : s.BusyHost b) (hport : s.port = []) :
    b = s.block := by
  obtain ⟨-, rfl⟩ | ⟨⟨w, hw⟩, -⟩ := h
  · rfl
  · simp [State.edgeInput, hport] at hw

/-! ### The block at each edge of a command -/

/-- A quotient and a remainder, one number on. -/
theorem div_mod_succ {c : Nat} (hc : 0 < c) (n : Nat) :
    (n % c + 1 = c ∧ (n + 1) / c = n / c + 1 ∧ (n + 1) % c = 0) ∨
    (n % c + 1 ≠ c ∧ (n + 1) / c = n / c ∧ (n + 1) % c = n % c + 1) := by
  have hn := Nat.div_add_mod n c
  have hlt := Nat.mod_lt n hc
  by_cases h : n % c + 1 = c
  · refine .inl ⟨h, (Nat.div_mod_unique hc).mpr ⟨?_, hc⟩⟩
    rw [Nat.mul_add]
    omega
  · exact .inr ⟨h, (Nat.div_mod_unique hc).mpr ⟨by omega, by omega⟩⟩

/-- The block `n` edges after an acceptance that left `b`, with STEP_CYCLES = `c`: `n / c` micro-steps are over, and
the present one has taken `n % c` cycles. -/
def Block.atEdge (b : Block) (miso : Nat → Bool) (c n : Nat) : Block :=
  { b.afterMicro miso (n / c) with tick := n % c }

/-- A state just after an acceptance. -/
structure State.Accepted (a : State) : Prop where
  busy : a.block.busy = true
  notDone : a.block.done = false
  upc : a.block.upc = 0
  tick : a.block.tick = 0
  noReset : noReset a.port

/-- The state `n` edges after an acceptance that left `a`: the block but for ERR and ERRCODE, and the environment. -/
structure RunningAt (a : State) (miso : Nat → Bool) (n : Nat) (u : State) : Prop where
  params : u.params = a.params
  noReset : noReset u.port
  block : u.block =
    { a.block.atEdge miso a.params.stepCycles n with err := u.block.err, errcode := u.block.errcode }
  misoIn : u.misoIn = a.misoIn.drop (samplesIn ((script a.block.latch).take (n / a.params.stepCycles)))
  quiet : a.port = [] → u.port = [] ∧ u.block.err = a.block.err ∧ u.block.errcode = a.block.errcode

theorem stepCycles_pos (p : Config.Params) : 0 < p.stepCycles := Nat.succ_pos _

theorem State.Accepted.runningAt_zero {a : State} (ha : a.Accepted) (hscript : 0 < (script a.block.latch).length)
    (miso : Nat → Bool) : RunningAt a miso 0 a where
  params := rfl
  noReset := ha.noReset
  block := by
    rw [Block.atEdge, Block.afterMicro, Nat.zero_div, Nat.zero_mod, if_pos hscript, Block.afterOps_zero ha.upc ha.tick,
      ← ha.tick]
  misoIn := by simp
  quiet := fun h => ⟨h, rfl, rfl⟩

/-- While the script is not over. -/
theorem RunningAt.block_of_lt {a u : State} {miso : Nat → Bool} {n : Nat} (h : RunningAt a miso n u)
    (hn : n / a.params.stepCycles < (script a.block.latch).length) :
    u.block = { a.block.afterOps miso (n / a.params.stepCycles) with
      tick := n % a.params.stepCycles, err := u.block.err, errcode := u.block.errcode } := by
  conv_lhs => rw [h.block, Block.atEdge, Block.afterMicro, if_pos hn]

/-- A level used up is the rest of the list. -/
theorem misoAfter_eq_drop {u : State} {levels : List Bool} {ops : List MicroOp} (op : MicroOp)
    (h : u.misoIn = levels.drop (samplesIn ops)) : u.misoAfter op = levels.drop (samplesIn (ops ++ [op])) := by
  rw [State.misoAfter, h, samplesIn_append]
  cases hop : op.samples with
  | true => simp [samplesIn, hop]
  | false => simp [samplesIn, hop]

/-- While the script is not over the command runs. -/
theorem RunningAt.busy_of_lt {a u : State} {miso : Nat → Bool} {n : Nat} (ha : a.Accepted) (h : RunningAt a miso n u)
    (hn : n / a.params.stepCycles < (script a.block.latch).length) : u.block.busy = true := by
  obtain ⟨hbusy, -⟩ := performFrom_keeps miso 0 ((script a.block.latch).take (n / a.params.stepCycles)) a.block
  rw [h.block_of_lt hn]
  exact hbusy.trans ha.busy

/-- What the host's part of an edge leaves when the host presents nothing. -/
theorem RunningAt.quiet_of_busyHost {a u : State} {miso : Nat → Bool} {n : Nat} {b : Block}
    (h : RunningAt a miso n u) (hhost : u.BusyHost b) (hport : a.port = []) :
    u.portAfter = [] ∧ b.err = a.block.err ∧ b.errcode = a.block.errcode := by
  obtain ⟨hnil, herr, hcode⟩ := h.quiet hport
  rw [hhost.eq_of_port_nil hnil]
  exact ⟨by simp [State.portAfter, hnil], herr, hcode⟩

/-- An edge that is not the last cycle of its micro-step. -/
theorem RunningAt.tick_step {a u : State} {miso : Nat → Bool} {n : Nat} (ha : a.Accepted) (h : RunningAt a miso n u)
    (hn : n / a.params.stepCycles < (script a.block.latch).length)
    (htick : n % a.params.stepCycles + 1 ≠ a.params.stepCycles) :
    ∃ u', step u = .next u' ∧ RunningAt a miso (n + 1) u' := by
  obtain ⟨hlast, -⟩ | ⟨-, hdiv, hmod⟩ := div_mod_succ (stepCycles_pos a.params) n
  · exact absurd hlast htick
  have hblock := h.block_of_lt hn
  have hnot : u.block.tick ≠ u.params.lastTick := by
    rw [hblock, h.params]
    exact fun heq => htick (congrArg (· + 1) heq)
  obtain ⟨b, hhost, hstep⟩ := step_of_tick h.noReset.noResetNext (h.busy_of_lt ha hn) hnot
  have hquiet := h.quiet_of_busyHost hhost
  refine ⟨_, hstep, h.params, h.noReset.portAfter, ?_, hdiv ▸ h.misoIn, hquiet⟩
  rw [Block.atEdge, Block.afterMicro, hdiv, hmod, if_pos hn]
  exact congrArg (fun c : Block => { c with tick := c.tick + 1, err := b.err, errcode := b.errcode }) hblock

/-- An edge that is the last cycle of its micro-step, with the course's level on MISO. -/
theorem RunningAt.micro_step {a u : State} {miso : Nat → Bool} {n : Nat} (ha : a.Accepted) (h : RunningAt a miso n u)
    (hn : n / a.params.stepCycles < (script a.block.latch).length)
    (htick : n % a.params.stepCycles + 1 = a.params.stepCycles)
    (hmiso : u.passEdge.misoLevel = miso (n / a.params.stepCycles)) :
    ∃ u', step u = .next u' ∧ RunningAt a miso (n + 1) u' := by
  obtain ⟨-, hdiv, hmod⟩ | ⟨hnot, -⟩ := div_mod_succ (stepCycles_pos a.params) n
  swap
  · exact absurd htick hnot
  have hblock := h.block_of_lt hn
  have hlast : u.block.tick = u.params.lastTick := by
    rw [hblock, h.params]
    exact Nat.succ.inj htick
  have hop : (script a.block.latch)[n / a.params.stepCycles]? = some (script a.block.latch)[n / a.params.stepCycles] :=
    List.getElem?_eq_getElem hn
  have hdue : u.block.dueOp = some (script a.block.latch)[n / a.params.stepCycles] := by
    rw [hblock]
    show (script (a.block.afterOps miso _).latch)[(a.block.afterOps miso _).upc.toNat]? = _
    rw [Block.afterOps_latch, Block.afterOps_upc hn, hop]
  obtain ⟨b, hhost, hstep⟩ := step_of_micro h.noReset.noResetNext (h.busy_of_lt ha hn) hlast hdue
  have hquiet := h.quiet_of_busyHost hhost
  refine ⟨_, hstep, h.params, h.noReset.portAfter, ?_, ?_, hquiet⟩
  · have hadvance := perform_advance_setFlags hblock (script a.block.latch)[n / a.params.stepCycles]
      (miso (n / a.params.stepCycles))
    have hnext := perform_advance_afterOps hop miso
    rw [hmiso, Block.atEdge, hdiv, hmod]
    exact (congrArg (fun c : Block => { c with tick := 0, err := b.err, errcode := b.errcode }) hadvance).trans
      (congrArg (fun c : Block => { c with tick := 0, err := b.err, errcode := b.errcode }) hnext)
  · rw [hdiv, List.take_add_one, hop]
    exact misoAfter_eq_drop _ h.misoIn

/-! ### The course of MISO and the whole run -/

/-- The level on MISO at the edge after the next `n`, should a SAMPLE be performed there. -/
def State.levelAfter (a : State) (n : Nat) : Bool :=
  match Host.Core.run Sys2Proof.core n a with
  | .next u => State.misoLevel (State.passEdge u)
  | .fault _ => false
  | .refused _ => false

/-- The course of MISO over the micro-steps of the command accepted in `a`. -/
def State.course (a : State) (j : Nat) : Bool := a.levelAfter (j * a.params.stepCycles + a.params.lastTick)

theorem coreRun_succ_last (M : Host.Core) {s t : M.State} {n : Nat} (h : M.run n s = .next t) :
    M.run (n + 1) s = M.step t := by
  induction n generalizing s with
  | zero =>
    cases h
    cases ht : M.step t with
    | next u =>
      rw [Host.Core.run, ht]
      rfl
    | fault r => rw [Host.Core.run, ht]
    | refused r => rw [Host.Core.run, ht]
  | succ n ih =>
    rw [Host.Core.run] at h ⊢
    cases hs : M.step s with
    | next u =>
      rw [hs] at h
      exact ih h
    | fault r => cases hs ▸ h
    | refused r => cases hs ▸ h

theorem run_succ_last {s t : State} {n : Nat} (h : Host.Core.run Sys2Proof.core n s = .next t) :
    Host.Core.run Sys2Proof.core (n + 1) s = step t :=
  coreRun_succ_last Sys2Proof.core h

/-- The run of an accepted command on its own course of MISO, up to its completion. -/
theorem run_of_accepted {a : State} (ha : a.Accepted) (hscript : 0 < (script a.block.latch).length) {n : Nat}
    (hn : n ≤ (script a.block.latch).length * a.params.stepCycles) :
    ∃ u : State, Host.Core.run Sys2Proof.core n a = .next u ∧ RunningAt a a.course n u := by
  induction n with
  | zero => exact ⟨a, rfl, ha.runningAt_zero hscript _⟩
  | succ n ih =>
    obtain ⟨u, hrun, h⟩ := ih (Nat.le_of_succ_le hn)
    have hlt : n / a.params.stepCycles < (script a.block.latch).length :=
      (Nat.div_lt_iff_lt_mul (stepCycles_pos a.params)).mpr hn
    rw [run_succ_last hrun]
    by_cases htick : n % a.params.stepCycles + 1 = a.params.stepCycles
    · refine h.micro_step ha hlt htick ?_
      have hlast : n % a.params.stepCycles = a.params.lastTick := Nat.succ.inj htick
      rw [State.course, ← hlast, Nat.div_add_mod', State.levelAfter, hrun]
    · exact h.tick_step ha hlt htick

/-- The course's level at a SAMPLE is the slave's, as far as it presents one. -/
theorem course_of_sample {a : State} (ha : a.Accepted) {j : Nat} {op : MicroOp} {x : Bool}
    (hop : (script a.block.latch)[j]? = some op)
    (hx : a.misoIn[samplesIn ((script a.block.latch).take j)]? = some x) : a.course j = x := by
  obtain ⟨hj, -⟩ := List.getElem?_eq_some_iff.mp hop
  have hc := stepCycles_pos a.params
  have hn : j * a.params.stepCycles + a.params.lastTick < (script a.block.latch).length * a.params.stepCycles :=
    calc j * a.params.stepCycles + a.params.lastTick < (j + 1) * a.params.stepCycles := by
          rw [Nat.succ_mul]
          exact Nat.add_lt_add_left (Nat.lt_succ_self _) _
      _ ≤ _ := Nat.mul_le_mul_right _ hj
  have hdiv : (j * a.params.stepCycles + a.params.lastTick) / a.params.stepCycles = j := by
    have hlast : a.params.lastTick < a.params.stepCycles := Nat.lt_succ_self _
    rw [Nat.mul_comm, Nat.mul_add_div hc, Nat.div_eq_of_lt hlast, Nat.add_zero]
  obtain ⟨u, hrun, h⟩ := run_of_accepted ha (by omega) hn.le
  have hmiso := h.misoIn
  rw [hdiv] at hmiso
  have hhead : u.misoIn.head? = some x := by rw [hmiso, List.head?_drop, hx]
  rw [State.course, State.levelAfter, hrun]
  show u.passEdge.misoLevel = x
  unfold State.misoLevel
  cases hu : u.misoIn with
  | nil => simp [hu] at hhead
  | cons y later =>
    rw [hu] at hhead
    simpa [hu] using hhead

/-! ### A command written to CMD -/

/-- The state that the acceptance of a command at the next edge leaves. -/
def State.afterAccept (s : State) (i : Instr) : State :=
  { s.passEdge with block := s.block.acceptCommand (fieldsOf i) }

section
variable {s : State} {i : Instr} {rest : List EdgeInput} (hs : s.Ready) (hwf : i.WellFormed)
  (hport : s.port = .access (.write .cmd (encode i)) :: rest) (hrest : noReset rest)
include hs hwf hport

theorem step_of_accepted : step s = .next (s.afterAccept i) := by
  have hdec : decode (encode i) = .cmd i := decodeOfEncodeIsTheCommand i hwf
  rw [step_of_write_accepted hs (State.edgeInput_of_port hport) hdec, ← fieldsOf_eq_latchOfWord]
  rfl

omit hs hwf in
theorem afterAccept_port : (s.afterAccept i).port = rest := congrArg State.port (State.passEdge_of_write hport)

include hrest

omit hs hwf in
theorem afterAccept_accepted : (s.afterAccept i).Accepted where
  busy := rfl
  notDone := rfl
  upc := rfl
  tick := rfl
  noReset := by
    rw [afterAccept_port hport]
    exact hrest

/-- The run of a command from its write to CMD, `n` edges after its acceptance. -/
theorem run_of_write {n : Nat} (hn : n ≤ scriptLength i * s.params.stepCycles) :
    ∃ t : State, Host.Core.run Sys2Proof.core (1 + n) s = .next t ∧
      RunningAt (s.afterAccept i) (s.afterAccept i).course n t := by
  have hn' : n ≤ (script (fieldsOf i)).length * s.params.stepCycles := by rwa [script_fieldsOf_length hwf]
  rw [Nat.add_comm, run_succ_of_next n (step_of_accepted hs hwf hport)]
  exact run_of_accepted (afterAccept_accepted hport hrest) (script_fieldsOf_ne_nil i) hn'

end

/-- BUSY and DONE at each edge of a run. -/
theorem RunningAt.flags {a u : State} {miso : Nat → Bool} {n : Nat} (ha : a.Accepted) (h : RunningAt a miso n u) :
    (u.block.busy = true ↔ n / a.params.stepCycles < (script a.block.latch).length) ∧
      (u.block.done = true ↔ ¬ n / a.params.stepCycles < (script a.block.latch).length) := by
  obtain ⟨hbusy, hdone, -⟩ := performFrom_keeps miso 0 ((script a.block.latch).take (n / a.params.stepCycles)) a.block
  rw [h.block, Block.atEdge, Block.afterMicro]
  split
  next hlt => exact ⟨iff_of_true (hbusy.trans ha.busy) hlt,
      iff_of_false (by simp [Block.afterOps, hdone, ha.notDone]) (not_not.mpr hlt)⟩
  next hge => exact ⟨iff_of_false (by simp) hge, iff_of_true rfl hge⟩

/-- Settles O56: a script of length L is over after L * STEP_CYCLES edges and not before. -/
theorem commandCompletesAfterItsScriptsCycles : Obligations.CommandCompletesAfterItsScriptsCycles := by
  intro s i rest n _ hs hwf hport hrest hn
  obtain ⟨t, hrun, h⟩ := run_of_write hs hwf hport hrest hn
  obtain ⟨hbusy, hdone⟩ := h.flags (afterAccept_accepted hport hrest)
  have hlt : n / s.params.stepCycles < (script (fieldsOf i)).length ↔ n < scriptLength i * s.params.stepCycles := by
    rw [Nat.div_lt_iff_lt_mul (stepCycles_pos s.params), script_fieldsOf_length hwf]
  exact ⟨t, hrun, hbusy.trans hlt, hdone.trans ((not_congr hlt).trans (by omega))⟩

/-- The block that a command leaves when its host presents nothing more. -/
theorem run_of_write_whole {s : State} {i : Instr} (hs : s.Ready) (hwf : i.WellFormed)
    (hport : s.port = [.access (.write .cmd (encode i))]) :
    ∃ t : State, Host.Core.run Sys2Proof.core (1 + scriptLength i * s.params.stepCycles) s = .next t ∧
      t.block = s.block.completed (fieldsOf i) (s.afterAccept i).course ∧
      t.misoIn = s.misoIn.drop (samplesIn (script (fieldsOf i))) := by
  have hrest : noReset [] := fun a => List.not_mem_nil
  obtain ⟨t, hrun, h⟩ := run_of_write hs hwf hport hrest (Nat.le_refl _)
  have hdiv : scriptLength i * s.params.stepCycles / s.params.stepCycles = (script (fieldsOf i)).length := by
    rw [Nat.mul_div_cancel _ (stepCycles_pos s.params), script_fieldsOf_length hwf]
  have hend : (s.afterAccept i).block.atEdge (s.afterAccept i).course s.params.stepCycles
      (scriptLength i * s.params.stepCycles) = s.block.completed (fieldsOf i) (s.afterAccept i).course := by
    have hover : ¬ (script (fieldsOf i)).length < (script (s.afterAccept i).block.latch).length := Nat.lt_irrefl _
    have htake : (script (s.afterAccept i).block.latch).take (script (fieldsOf i)).length = script (fieldsOf i) :=
      List.take_length
    rw [Block.atEdge, hdiv, Nat.mul_mod_left, Block.afterMicro, if_neg hover, Block.afterOps, htake]
    rfl
  have hblock : t.block = { s.block.completed (fieldsOf i) (s.afterAccept i).course with
      err := t.block.err, errcode := t.block.errcode } := hend ▸ h.block
  have hmiso : t.misoIn = s.misoIn.drop (samplesIn ((script (fieldsOf i)).take _)) := hdiv ▸ h.misoIn
  obtain ⟨-, herr, hcode⟩ := h.quiet (afterAccept_port hport)
  obtain ⟨-, -, herr', hcode'⟩ := performFrom_keeps (s.afterAccept i).course 0 (script (fieldsOf i))
    (s.block.acceptCommand (fieldsOf i))
  refine ⟨t, hrun, ?_, ?_⟩
  · rw [herr.trans herr'.symm, hcode.trans hcode'.symm] at hblock
    exact hblock
  · rwa [List.take_length] at hmiso

/-- Settles O57: the course is that of the levels at the micro-steps' own edges. -/
theorem runOfACommandIsItsMicroSteps : Obligations.RunOfACommandIsItsMicroSteps := by
  intro s i _ hs hwf hport
  obtain ⟨t, hrun, hblock, hmiso⟩ := run_of_write_whole hs hwf hport
  have haccepted : (s.afterAccept i).Accepted := afterAccept_accepted hport fun a => List.not_mem_nil
  refine ⟨_, t, (s.afterAccept i).course, exec_of_ready hs hwf, hrun, ?_, fun j op x hop _ hx => ?_, hmiso⟩
  · rw [hblock]
    exact runMicro_acceptCommand_whole s.block hwf _
  · exact course_of_sample haccepted hop hx

/-! ### The slave's levels in the received bytes (R95, R102, R125) -/

theorem samplesIn_recvBits (k : Fin 8) : samplesIn (recvBits k) = 8 := by
  simp [samplesIn, recvBits, recvBit, List.filter_cons, MicroOp.samples]

theorem samplesIn_slotOps {m : Nat} (hm : m ≤ 8) : samplesIn (slotOps m) = 8 * m := by
  induction m with
  | zero => rfl
  | succ m ih =>
    rw [slotOps_succ ⟨m, hm⟩, samplesIn_append, ih (Nat.le_of_succ_le hm), samplesIn_recvBits, Nat.mul_succ]

theorem samplesIn_sendBits (v : Byte) : samplesIn (sendBits v) = 0 := by
  simp [samplesIn, sendBits, wireBits, sendBit, MicroOp.samples]

/-- The receive slots, apart at slot `k`. -/
theorem slotOps_eq_append {m : Nat} (hm : m ≤ 8) (k : Fin 8) (hk : k.val < m) :
    ∃ rest, slotOps m = slotOps k.val ++ (recvBits k ++ rest) := by
  induction m with
  | zero => exact absurd hk (Nat.not_lt_zero _)
  | succ m ih =>
    rcases Nat.lt_or_eq_of_le (Nat.le_of_lt_succ hk) with hlt | heq
    · obtain ⟨rest, hrest⟩ := ih (Nat.le_of_succ_le hm) hlt
      exact ⟨rest ++ recvBits ⟨m, hm⟩, by rw [slotOps_succ ⟨m, hm⟩, hrest]; simp only [List.append_assoc]⟩
    · obtain rfl : k = ⟨m, hm⟩ := Fin.ext heq
      exact ⟨[], by rw [List.append_nil, slotOps_succ ⟨m, hm⟩]⟩

/-- The SAMPLEs of a byte stand at its micro-operations 1, 4, ..., 22 (R103). -/
theorem recvBits_sample (k : Fin 8) {i : Nat} (hi : i < 8) :
    ∃ op, (recvBits k)[3 * i + 1]? = some op ∧ samplesIn ((recvBits k).take (3 * i + 1)) = i := by
  interval_cases i <;> exact ⟨_, rfl, rfl⟩

/-- The SAMPLE `i` of byte `k` of a receiving script is its SAMPLE number 8k + i. -/
theorem receive_sample {pre post : List MicroOp} {m : Nat} (hpre : samplesIn pre = 0) (hm : m ≤ 8) (k : Fin 8)
    (hk : k.val < m) {i : Nat} (hi : i < 8) :
    ∃ op, (pre ++ slotOps m ++ post)[pre.length + 24 * k.val + (3 * i + 1)]? = some op ∧
      samplesIn ((pre ++ slotOps m ++ post).take (pre.length + 24 * k.val + (3 * i + 1))) = 8 * k.val + i := by
  obtain ⟨rest, hrest⟩ := slotOps_eq_append hm k hk
  obtain ⟨op, hop, hcount⟩ := recvBits_sample k hi
  have hin : 3 * i + 1 < (recvBits k).length := by rw [recvBits_length]; omega
  have hsplit : pre ++ slotOps m ++ post = (pre ++ slotOps k.val) ++ (recvBits k ++ (rest ++ post)) := by
    rw [hrest]
    simp only [List.append_assoc]
  have hlen : pre.length + 24 * k.val = (pre ++ slotOps k.val).length := by
    rw [List.length_append, slotOps_length k.isLt.le]
  rw [hsplit, hlen]
  refine ⟨op, ?_, ?_⟩
  · rw [List.getElem?_append_right (Nat.le_add_right _ _), Nat.add_sub_cancel_left, List.getElem?_append_left hin, hop]
  · rw [List.take_length_add_append, List.take_append_of_le_length hin.le, samplesIn_append, samplesIn_append, hpre,
      samplesIn_slotOps k.isLt.le, hcount, Nat.zero_add]

/-- The bytes that a receiving command samples on its own course are those of the slave's levels. -/
theorem sampledByte_course {a : State} (ha : a.Accepted) {pre post : List MicroOp} {m : Nat}
    (hscript : script a.block.latch = pre ++ slotOps m ++ post) (hpre : samplesIn pre = 0) (hm : m ≤ 8)
    {levels later : List Bool} (hmiso : a.misoIn = levels ++ later) (hlen : levels.length = 8 * m) (k : Fin 8)
    (hk : k.val < m) : sampledByte a.course (pre.length + 24 * k.val + 1) = listedByte levels k.val := by
  refine sampledByte_eq_byteOfSamples (f := fun i => levels.getD (8 * k.val + i) false) fun i hi => ?_
  obtain ⟨op, hop, hcount⟩ := receive_sample (post := post) hpre hm k hk hi
  rw [← hscript] at hop hcount
  have hin : 8 * k.val + i < levels.length := by omega
  rw [Nat.add_assoc, Nat.add_comm 1]
  refine course_of_sample ha hop ?_
  rw [hcount, hmiso, List.getElem?_append_left hin, List.getD_eq_getElem _ _ hin, List.getElem?_eq_getElem hin]

/-- Settles O58: the run ends in the completed block of READ_REGS on the course of the slave's levels. -/
theorem readRegsDeliversTheSlavesBytes : Obligations.ReadRegsDeliversTheSlavesBytes := by
  intro s a n levels later _ hs hn hport hmiso hlen
  have haccepted : (s.afterAccept (.readRegs a n)).Accepted := afterAccept_accepted hport fun _ => List.not_mem_nil
  have hpre : samplesIn ([MicroOp.cs false] ++ sendBits (readAddressByte a)) = 0 := by
    rw [samplesIn_append, samplesIn_sendBits]
    rfl
  have hbytes := sampledByte_course haccepted (script_readRegs_eq_slotOps a n) hpre hn hmiso hlen
  have hall : samplesIn (script ⟨0x4#4, n, a, 0#8⟩) = levels.length := by
    rw [script_readRegs_eq_slotOps, samplesIn_append, samplesIn_append, hpre, samplesIn_slotOps hn, hlen, Nat.zero_add]
    rfl
  obtain ⟨t, hrun, hblock, hrest⟩ := run_of_write_whole hs (i := .readRegs a n) (decide_eq_true hn) hport
  rw [fieldsOf, completed_readRegs s.block a _ hn] at hblock
  refine ⟨t, hrun, fun k => ?_, ?_⟩
  · have hplace : 26 + 24 * k.val = ([MicroOp.cs false] ++ sendBits (readAddressByte a)).length + 24 * k.val + 1 := by
      rw [List.length_append, sendBits_length, List.length_singleton]
      omega
    have hentry : t.block.rxbuf[k] =
        if k.val < n.toNat then sampledByte (s.afterAccept (.readRegs a n)).course (26 + 24 * k.val) else 0 := by
      rw [hblock]
      exact Vector.getElem_ofFn k.isLt
    rw [hentry, hplace]
    by_cases hk : k.val < n.toNat
    · rw [if_pos hk, if_pos hk, hbytes k hk]
    · rw [if_neg hk, if_neg hk]
  · rw [hblock]
    exact ⟨rfl, rfl, rfl, rfl, rfl, rfl, rfl, by rw [hrest, hmiso]; exact List.drop_left' hall.symm⟩

/-- Settles O59: the run ends in the completed block of RECV_BYTE on the course of the slave's levels. -/
theorem recvByteDeliversTheSlavesByte : Obligations.RecvByteDeliversTheSlavesByte := by
  intro s levels later h hs hport hmiso hlen
  have haccepted : (s.afterAccept .recvByte).Accepted := afterAccept_accepted hport fun _ => List.not_mem_nil
  have hbyte := sampledByte_course haccepted script_recvByte_eq_slotOps rfl (by decide) hmiso hlen 0 (by decide)
  have hall : samplesIn (script ⟨0x2#4, 0#4, 0#6, 0#8⟩) = levels.length := hlen.symm
  obtain ⟨t, hrun, hblock, hrest⟩ := run_of_write_whole hs (i := .recvByte) rfl hport
  rw [fieldsOf, completed_recvByte] at hblock
  refine ⟨t, hrun, fun k => ?_, ?_⟩
  · rw [hblock]
    fin_cases k
    · exact hbyte
    all_goals rfl
  · rw [hblock]
    exact ⟨hbyte, rfl, (h.idleLines hs.1).1, rfl, rfl, rfl, rfl, rfl,
      by rw [hrest, hmiso]; exact List.drop_left' hall.symm⟩

end Sys2Proof.Machine
end

section
/-! PROOFS. Select assertions and the echo slave (spec/70_reset_and_hazards.md R189, spec/42_register_sequencer.md R130,
spec/93_implementation_defined.md U5, U6): how a select assertion ends, and what an echo slave holds after a command. -/

namespace Sys2Proof.Machine

open Sys2Proof.Laws.EncodeFields (fieldsOf)
open Attached (EchoSlave EchoHarness SelectEnd selectEnd)

/-! ### Where a select assertion ends (R130, R189) -/

theorem selectEnd_ne_none_iff {s t : State} :
    selectEnd s t ≠ none ↔ (pins s.block).csN = .low ∧ (pins t.block).csN ≠ .low := by
  rw [← Option.isSome_iff_ne_none, Attached.selectEnd_isSome]
  simp

/-- An assertion that ends is cut exactly at an edge with a reset. -/
theorem selectEnd_eq_of_ends {s t : State} (hlow : (pins s.block).csN = .low) (hend : (pins t.block).csN ≠ .low) :
    (∀ a, s.edgeInput = .rst a → selectEnd s t = some .cut) ∧
      (s.NoResetNext → selectEnd s t = some .completed) := by
  have hcond : ((pins s.block).csN == .low && (pins t.block).csN != .low) = true := by simp [hlow, hend]
  unfold selectEnd
  rw [if_pos hcond]
  refine ⟨fun a hin => by rw [hin], fun hr => ?_⟩
  cases hin : s.edgeInput with
  | rst a => exact absurd hin (hr a)
  | idle => rfl
  | access a => rfl
  | poll => rfl

/-- What is known of an edge at which a select assertion ends. -/
theorem edge_of_selectEnd {s t : State} {ended : SelectEnd} (h : selectEnd s t = some ended) :
    ((pins s.block).csN = .low ∧ (pins t.block).csN ≠ .low) ∧
      ((∃ a, s.edgeInput = .rst a) ∧ ended = .cut ∨ s.NoResetNext ∧ ended = .completed) := by
  have hends := selectEnd_ne_none_iff.mp (h ▸ Option.some_ne_none ended)
  obtain ⟨hcut, hcompleted⟩ := selectEnd_eq_of_ends hends.1 hends.2
  refine ⟨hends, ?_⟩
  by_cases hreset : ∃ a, s.edgeInput = .rst a
  · obtain ⟨a, hin⟩ := hreset
    exact .inl ⟨⟨a, hin⟩, Option.some.inj (h.symm.trans (hcut a hin))⟩
  · have hr : s.NoResetNext := not_exists.mp hreset
    exact .inr ⟨hr, Option.some.inj (h.symm.trans (hcompleted hr))⟩

/-- A select line that is low belongs to a running command. -/
theorem Block.Inv.busy_of_select {p : Config.Params} {b : Block} (h : b.Inv p) (hcs : b.csNQ = false) :
    b.busy = true := by
  by_contra hidle
  obtain ⟨hhigh, -⟩ := h.idleLines (Bool.eq_false_of_not_eq_true hidle)
  exact Bool.false_ne_true (hcs.symm.trans hhigh)

theorem csN_eq_low_iff {b : Block} : (pins b).csN = .low ↔ b.released = false ∧ b.csNQ = false := by
  cases hr : b.released <;> cases hc : b.csNQ <;> simp [pins, pinLevel, drivenLevel, hr, hc]

/-- CS(1) is the last micro-operation of a register command's script and stands nowhere else. -/
theorem script_cs_true {l : Latch} {j : Nat} (h : (script l)[j]? = some (.cs true)) :
    (l.op = 0x3#4 ∨ l.op = 0x4#4) ∧ j + 1 = (script l).length := by
  have hmem := List.mem_of_getElem? h
  obtain ⟨-, -, -, hdata⟩ | ⟨hop, body, hdata, hscript⟩ | ⟨-, hscript⟩ := script_shape l
  · exact absurd (hdata _ hmem) (by decide)
  · refine ⟨hop, ?_⟩
    obtain ⟨hj, -⟩ := List.getElem?_eq_some_iff.mp h
    rw [hscript] at h hj ⊢
    rw [List.length_append, List.length_singleton] at hj ⊢
    by_contra hnot
    rw [List.getElem?_append_left (by omega)] at h
    have hbody : MicroOp.cs true ∈ body := by simpa using List.mem_of_getElem? h
    exact absurd (hdata _ hbody) (by decide)
  · rw [hscript] at hmem
    simp at hmem

/-- The micro-operation that ends a select assertion is the last of a register command's script. -/
theorem last_of_select_ends {p : Config.Params} {b : Block} (h : b.Inv p) (hbusy : b.busy = true) {op : MicroOp}
    (hdue : b.dueOp = some op) {m : Bool} (hlow : (pins b).csN = .low) (hend : (pins (perform op m b)).csN ≠ .low) :
    (b.lop = 0x3#4 ∨ b.lop = 0x4#4) ∧ b.upc.toNat + 1 = (script b.latch).length := by
  obtain ⟨hreleased, hcs⟩ := csN_eq_low_iff.mp hlow
  have hkeep {c : Block} (hr : c.released = b.released) (hc : c.csNQ = b.csNQ) : (pins c).csN = .low :=
    csN_eq_low_iff.mpr ⟨hr.trans hreleased, hc.trans hcs⟩
  cases op with
  | cs v =>
    cases v with
    | true => exact script_cs_true hdue
    | false =>
      have hlowered : (pins (perform (.cs false) m b)).csN = .low := csN_eq_low_iff.mpr ⟨hreleased, rfl⟩
      exact absurd hlowered hend
  | clk v => exact absurd (hkeep rfl rfl) hend
  | dout v => exact absurd (hkeep rfl rfl) hend
  | sample k last =>
    obtain ⟨hc, -, -, hr⟩ := perform_sample_keeps_lines k last m b
    exact absurd (hkeep hr hc) hend
  | rel =>
    obtain ⟨-, hscript⟩ := script_eq_of_rel_mem (List.mem_of_getElem? hdue)
    have hupc := h.dueIndex hbusy
    have hlines := h.runLines hbusy
    rw [hscript, List.length_singleton, Nat.lt_one_iff] at hupc
    rw [Block.performed, hupc, List.take_zero] at hlines
    exact absurd (hcs.symm.trans (congrArg Prod.fst hlines)) (by decide)

/-- A select assertion that ends without a reset ends with the last micro-step of a register command. -/
theorem completes_of_selectEnd {s t : State} (h : s.Inv) (hr : s.NoResetNext) (hstep : step s = .next t)
    (hlow : (pins s.block).csN = .low) (hend : (pins t.block).csN ≠ .low) :
    s.block.busy = true ∧ (s.block.lop = 0x3#4 ∨ s.block.lop = 0x4#4) ∧
      s.block.upc.toNat + 1 = (script s.block.latch).length ∧ t.block.busy = false ∧ t.block.done = true := by
  cases edge_of_step hstep with
  | reset hin => exact absurd hin (hr _)
  | idle => exact absurd hlow hend
  | refused => exact absurd hlow hend
  | accepted => exact absurd hlow hend
  | tick _ _ hhost =>
    rw [hhost.keeps] at hend
    exact absurd hlow hend
  | @micro b op _ hbusy hhost _ hdue =>
    have hdue' : s.block.dueOp = some op := hhost.dueOp_eq.symm.trans hdue
    rw [hhost.advance_eq] at hend ⊢
    obtain ⟨hlast, hadv⟩ | ⟨hmore, hadv⟩ := s.block.perform_advance_cases op s.passEdge.misoLevel
    · rw [hadv] at hend ⊢
      obtain ⟨hop, -⟩ := last_of_select_ends h hbusy hdue' hlow hend
      exact ⟨hbusy, hop, hlast, rfl, rfl⟩
    · rw [hadv] at hend
      exact absurd (last_of_select_ends h hbusy hdue' hlow hend).2 hmore

/-- Of a slave that forgets, nothing is known. -/
theorem forget_eq_unknown (e : EchoSlave) (levels : List Level) :
    ∃ before heard, e.forget levels = .unknown before heard := by
  cases e with
  | holding regs => exact ⟨_, _, rfl⟩
  | unknown before heard => exact ⟨_, _, rfl⟩

/-- Once nothing is known of a slave, nothing is known of it ever after. -/
theorem edge_of_unknown (before : Vector Byte 64) (heard : List (Option Bool)) (bits : List Level) (s t : State) :
    ∃ more, (EchoHarness.edge ⟨.unknown before heard, bits⟩ s t).slave = .unknown before (heard ++ more) := by
  by_cases hz : (pins t.block).csN = .z
  · exact ⟨_, by rw [EchoHarness.edge_of_undriven _ hz, Attached.EchoSlave.forget_unknown]⟩
  · cases hs : selectEnd s t with
    | none => exact ⟨[], by rw [EchoHarness.edge_of_selectEnd_none _ hz hs, List.append_nil]⟩
    | some ended =>
      exact ⟨_, by rw [EchoHarness.edge_of_selectEnd_some _ hz hs, Attached.EchoSlave.hear_unknown,
        Attached.EchoSlave.forget_unknown]⟩

/-- A reset while CS_N is low cuts the select assertion. -/
theorem reset_cuts {s : State} {presented : Option Access} (h : s.Inv) (hin : s.edgeInput = .rst presented)
    (hcs : s.block.csNQ = false) :
    ∃ t, step s = .next t ∧ (pins t.block).csN = .high ∧ t.block.busy = false ∧ selectEnd s t = some .cut ∧
      ∀ g : EchoHarness, ∃ before heard, g.edge s t = ⟨.unknown before heard, []⟩ := by
  have howned : s.block.released = false := h.busyOwned (h.busy_of_select hcs)
  have hlow : (pins s.block).csN = .low := csN_eq_low_iff.mpr ⟨howned, hcs⟩
  have hhigh : (pins Block.reset).csN = .high := congrArg Pins.csN pins_reset
  have hcut := (selectEnd_eq_of_ends hlow (t := s.passEdge.resetEdge) (by simp [hhigh])).1 presented hin
  refine ⟨_, step_of_rst hin, hhigh, rfl, hcut, fun g => ?_⟩
  rw [EchoHarness.edge_of_selectEnd_some g (by simp [hhigh]) hcut, EchoSlave.hear_cut]
  obtain ⟨before, heard, hforget⟩ := forget_eq_unknown g.slave
    (g.bits ++ selectedBits [pins s.block, pins s.passEdge.resetEdge.block])
  exact ⟨before, heard, by rw [hforget]⟩

/-! ### An echo slave over one edge of a command -/

/-- Micro-operations over which no select assertion ends. -/
def Continuing (ops : List MicroOp) : Prop := ∀ op ∈ ops, op ≠ .cs true ∧ op ≠ .rel

theorem DataOps.continuing {ops : List MicroOp} (h : DataOps ops) : Continuing ops := by
  intro op hop
  have hdata := h op hop
  constructor <;> rintro rfl <;> cases hdata

theorem Continuing.take_of_le {ops : List MicroOp} {j k : Nat} (h : Continuing (ops.take k)) (hjk : j ≤ k) :
    Continuing (ops.take j) := by
  rw [← Nat.min_eq_left hjk, ← List.take_take]
  exact fun op hop => h op (List.mem_of_mem_take hop)

theorem continuing_frame {body : List MicroOp} (h : DataOps body) : Continuing ([.cs false] ++ body) := by
  intro op hop
  obtain rfl | hop := by simpa using hop
  · simp
  · exact h.continuing op hop

/-- Driven pins that end no select assertion: the slave reads on. -/
theorem edge_of_drivenPins (g : EchoHarness) {u v : State} {x y : Bool × Bool × Bool} (hu : pins u.block = drivenPins x)
    (hv : pins v.block = drivenPins y) (hxy : x.1 = false → y.1 = false) :
    g.edge u v = { g with bits := g.bits ++ selectedBits [drivenPins x, drivenPins y] } := by
  have hz : (pins v.block).csN ≠ .z := by
    rw [hv]
    cases hy : y.1 <;> simp [drivenPins, drivenLevel, hy]
  have hnone : selectEnd u v = none := by
    by_contra hsome
    obtain ⟨hlow, hend⟩ := selectEnd_ne_none_iff.mp hsome
    rw [hu] at hlow
    rw [hv] at hend
    have hx : x.1 = false := by cases hx : x.1 <;> simp_all [drivenPins, drivenLevel]
    exact hend (by simp [drivenPins, drivenLevel, hxy hx])
  rw [EchoHarness.edge_of_selectEnd_none g hz hnone, hu, hv]

theorem selectedBits_same (x : Bool × Bool × Bool) : selectedBits [drivenPins x, drivenPins x] = [] := by
  cases hx : x.2.1 <;> simp [selectedBits, sclkFalls, drivenPins, drivenLevel, hx]

theorem selectedBits_step (x : Bool × Bool × Bool) (op : MicroOp) :
    selectedBits [drivenPins x, drivenPins (latchStep x op)] = bitsOver selectedPins x [op] :=
  selectedBits_pinsOver x [op]

theorem latchStep_keeps_select {op : MicroOp} (h : op ≠ .cs true) {x : Bool × Bool × Bool} (hx : x.1 = false) :
    (latchStep x op).1 = false := by
  cases op with
  | cs v => simpa [latchStep] using h
  | clk v => exact hx
  | dout v => exact hx
  | sample k last => exact hx
  | rel => exact hx

/-! ### An echo slave over the edges of a command -/

theorem coreRun_succ_eq_next (M : Host.Core) {s u : M.State} {n : Nat} (h : M.run (n + 1) s = .next u) :
    ∃ t, M.step s = .next t ∧ M.run n t = .next u := by
  rw [Host.Core.run] at h
  cases hs : M.step s with
  | next t => exact ⟨t, rfl, by rwa [hs] at h⟩
  | fault r => cases hs ▸ h
  | refused r => cases hs ▸ h

/-- The last edge of a harness's course, split off. -/
theorem follow_succ_last (g : EchoHarness) {n : Nat} {s u v : State}
    (hrun : Host.Core.run Sys2Proof.core n s = .next u) (hstep : step u = .next v) :
    g.follow (n + 1) s = (g.follow n s).edge u v := by
  induction n generalizing g s with
  | zero =>
    cases hrun
    exact g.follow_succ_of_next 0 hstep
  | succ n ih =>
    obtain ⟨t, ht, hrest⟩ := coreRun_succ_eq_next Sys2Proof.core hrun
    have ht' : step s = .next t := ht
    rw [g.follow_succ_of_next (n + 1) ht', g.follow_succ_of_next n ht', ih (g.edge s t) hrest]

/-- The pins at each edge of a command that keeps the lines so far. -/
theorem RunningAt.pins_eq {a u : State} {miso : Nat → Bool} {n : Nat} (h : RunningAt a miso n u)
    (howned : a.block.released = false) (hrel : MicroOp.rel ∉ (script a.block.latch).take (n / a.params.stepCycles)) :
    pins u.block = drivenPins (((script a.block.latch).take (n / a.params.stepCycles)).foldl latchStep
      a.block.outputLatches) := by
  have hops : pins u.block =
      pins (performFrom miso 0 ((script a.block.latch).take (n / a.params.stepCycles)) a.block) := by
    rw [h.block, Block.atEdge, Block.afterMicro]
    split <;> rfl
  rw [hops, pins_eq_drivenPins ((performFrom_released hrel miso 0 _).trans howned), performFrom_outputLatches]

/-- The edges of a command are numbered by its micro-steps and their cycles. -/
theorem succ_div_cases {c : Nat} (hc : 0 < c) (n : Nat) : (n + 1) / c = n / c ∨ (n + 1) / c = n / c + 1 := by
  obtain ⟨-, hdiv, -⟩ | ⟨-, hdiv, -⟩ := div_mod_succ hc n
  · exact .inr hdiv
  · exact .inl hdiv

section
variable {s : State} {i : Instr} {rest : List EdgeInput} (h : s.Inv) (hs : s.Ready) (hwf : i.WellFormed)
  (hport : s.port = .access (.write .cmd (encode i)) :: rest) (hrest : noReset rest)
include h hs hwf hport hrest

omit hwf hport hrest in
/-- The pins at each edge of a command that keeps the lines so far, from the idle lines. -/
theorem pins_of_runningAt {n : Nat} {u : State} {miso : Nat → Bool} (hu : RunningAt (s.afterAccept i) miso n u)
    (hrel : MicroOp.rel ∉ (script (fieldsOf i)).take (n / s.params.stepCycles)) :
    pins u.block = drivenPins (((script (fieldsOf i)).take (n / s.params.stepCycles)).foldl latchStep
      (true, false, s.block.mosiQ)) := by
  rw [← h.outputLatches_eq hs.1]
  exact hu.pins_eq hs.2 hrel

omit h in
/-- The next edge of a command. -/
theorem next_edge {n : Nat} (hn : n + 1 ≤ scriptLength i * s.params.stepCycles) (g : EchoHarness) :
    ∃ (u v : State) (miso : Nat → Bool), RunningAt (s.afterAccept i) miso n u ∧
      RunningAt (s.afterAccept i) miso (n + 1) v ∧ g.follow (1 + (n + 1)) s = (g.follow (1 + n) s).edge u v := by
  obtain ⟨u, hrun, hu⟩ := run_of_write hs hwf hport hrest (Nat.le_of_succ_le hn)
  obtain ⟨v, hrun', hv⟩ := run_of_write hs hwf hport hrest hn
  have hstep : step u = .next v := (run_succ_last hrun).symm.trans hrun'
  exact ⟨u, v, _, hu, hv, follow_succ_last g hrun hstep⟩

/-- While no select assertion ends, the slave has read what the micro-operations show it. -/
theorem follow_of_continuing (regs : Vector Byte 64) {n : Nat} (hn : n ≤ scriptLength i * s.params.stepCycles)
    (hcont : Continuing ((script (fieldsOf i)).take (n / s.params.stepCycles))) :
    EchoHarness.follow ⟨.holding regs, []⟩ (1 + n) s = ⟨.holding regs,
      bitsOver selectedPins (true, false, s.block.mosiQ) ((script (fieldsOf i)).take (n / s.params.stepCycles))⟩ := by
  have hc := stepCycles_pos s.params
  have howns {n : Nat} (hcont : Continuing ((script (fieldsOf i)).take (n / s.params.stepCycles))) :
      MicroOp.rel ∉ (script (fieldsOf i)).take (n / s.params.stepCycles) := fun hrel => (hcont _ hrel).2 rfl
  induction n with
  | zero =>
    have hidle : pins s.block = drivenPins (true, false, s.block.mosiQ) := by
      rw [pins_eq_drivenPins hs.2, h.outputLatches_eq hs.1]
    have hedge := edge_of_drivenPins ⟨.holding regs, []⟩ (v := s.afterAccept i) hidle hidle id
    rw [EchoHarness.follow_succ_of_next _ 0 (step_of_accepted hs hwf hport), EchoHarness.follow_zero, hedge,
      selectedBits_same, Nat.zero_div]
    rfl
  | succ n ih =>
    have hprev : Continuing ((script (fieldsOf i)).take (n / s.params.stepCycles)) :=
      hcont.take_of_le (Nat.div_le_div_right (Nat.le_succ n))
    obtain ⟨u, v, miso, hu, hv, hfollow⟩ := next_edge hs hwf hport hrest hn ⟨.holding regs, []⟩
    have hpins := pins_of_runningAt h hs hu (howns hprev)
    have hpins' := pins_of_runningAt h hs hv (howns hcont)
    rw [hfollow, ih (Nat.le_of_succ_le hn) hprev]
    obtain hdiv | hdiv := succ_div_cases hc n
    · rw [hdiv] at hpins' ⊢
      rw [edge_of_drivenPins _ hpins hpins' id, selectedBits_same, List.append_nil]
    · cases hop : (script (fieldsOf i))[n / s.params.stepCycles]? with
      | none =>
        have hsame : (script (fieldsOf i)).take ((n + 1) / s.params.stepCycles) =
            (script (fieldsOf i)).take (n / s.params.stepCycles) := by
          rw [hdiv, List.take_add_one, hop]
          simp
        rw [hsame] at hpins' ⊢
        rw [edge_of_drivenPins _ hpins hpins' id, selectedBits_same, List.append_nil]
      | some op =>
        have hnext : (script (fieldsOf i)).take ((n + 1) / s.params.stepCycles) =
            (script (fieldsOf i)).take (n / s.params.stepCycles) ++ [op] := by
          rw [hdiv, List.take_add_one, hop]
          rfl
        rw [hnext] at hcont hpins' ⊢
        rw [List.foldl_append] at hpins'
        obtain ⟨hne, -⟩ := hcont op (by simp)
        rw [edge_of_drivenPins _ hpins hpins' (latchStep_keeps_select hne), bitsOver_append]
        exact congrArg (fun bits => EchoHarness.mk _ (_ ++ bits)) (selectedBits_step _ op)

/-- The last edge of a command, from the one before. -/
theorem follow_last (regs : Vector Byte 64) {ops : List MicroOp} {op : MicroOp}
    (hscript : script (fieldsOf i) = ops ++ [op]) (hcont : Continuing ops) :
    ∃ (u v : State) (miso : Nat → Bool),
      u.NoResetNext ∧ pins u.block = drivenPins (ops.foldl latchStep (true, false, s.block.mosiQ)) ∧
      RunningAt (s.afterAccept i) miso (scriptLength i * s.params.stepCycles) v ∧
      EchoHarness.follow ⟨.holding regs, []⟩ (1 + scriptLength i * s.params.stepCycles) s =
        EchoHarness.edge ⟨.holding regs, bitsOver selectedPins (true, false, s.block.mosiQ) ops⟩ u v := by
  have hlen : scriptLength i = ops.length + 1 := by
    rw [← script_fieldsOf_length hwf, hscript, List.length_append, List.length_singleton]
  have hlast : s.params.lastTick < s.params.stepCycles := Nat.lt_succ_self _
  have hend : scriptLength i * s.params.stepCycles = ops.length * s.params.stepCycles + s.params.lastTick + 1 := by
    rw [hlen, Nat.succ_mul]
    rfl
  have hdiv : (ops.length * s.params.stepCycles + s.params.lastTick) / s.params.stepCycles = ops.length := by
    rw [Nat.mul_comm, Nat.mul_add_div (stepCycles_pos s.params), Nat.div_eq_of_lt hlast, Nat.add_zero]
  have htake : (script (fieldsOf i)).take ((ops.length * s.params.stepCycles + s.params.lastTick) /
      s.params.stepCycles) = ops := by
    rw [hdiv, hscript]
    exact List.take_left
  obtain ⟨u, v, miso, hu, hv, hfollow⟩ := next_edge hs hwf hport hrest hend.ge ⟨.holding regs, []⟩
  have hbits := follow_of_continuing h hs hwf hport hrest regs (Nat.le_of_succ_le hend.ge) (htake.symm ▸ hcont)
  have hpins := pins_of_runningAt h hs hu (htake.symm ▸ fun hrel => (hcont _ hrel).2 rfl)
  rw [htake] at hbits hpins
  rw [hbits] at hfollow
  rw [hend]
  exact ⟨u, v, miso, hu.noReset.noResetNext, hpins, hv, hfollow⟩

/-- After a command whose script is data operations alone the slave has read on. -/
theorem follow_dataOps (regs : Vector Byte 64) (hdata : DataOps (script (fieldsOf i))) :
    EchoHarness.follow ⟨.holding regs, []⟩ (1 + scriptLength i * s.params.stepCycles) s =
      ⟨.holding regs, bitsOver selectedPins (true, false, s.block.mosiQ) (script (fieldsOf i))⟩ := by
  have htake : (script (fieldsOf i)).take (scriptLength i * s.params.stepCycles / s.params.stepCycles) =
      script (fieldsOf i) := by
    rw [Nat.mul_div_cancel _ (stepCycles_pos s.params), ← script_fieldsOf_length hwf, List.take_length]
  have hfollow := follow_of_continuing h hs hwf hport hrest regs (Nat.le_refl _) (htake.symm ▸ hdata.continuing)
  rwa [htake] at hfollow

/-- After a register command the slave has heard one completed select assertion. -/
theorem follow_frame (regs : Vector Byte 64) {body : List MicroOp} (hdata : DataOps body)
    (hscript : script (fieldsOf i) = [.cs false] ++ body ++ [.cs true]) :
    EchoHarness.follow ⟨.holding regs, []⟩ (1 + scriptLength i * s.params.stepCycles) s =
      ⟨(EchoSlave.holding regs).hear .completed
        (bitsOver selectedPins (true, false, s.block.mosiQ) (script (fieldsOf i))), []⟩ := by
  obtain ⟨u, v, miso, hr, hpins, hv, hfollow⟩ :=
    follow_last h hs hwf hport hrest regs hscript (continuing_frame hdata)
  have htake : (script (fieldsOf i)).take (scriptLength i * s.params.stepCycles / s.params.stepCycles) =
      [.cs false] ++ body ++ [.cs true] := by
    rw [Nat.mul_div_cancel _ (stepCycles_pos s.params), ← script_fieldsOf_length hwf, List.take_length, hscript]
  have hpins' := pins_of_runningAt h hs hv (by
    rw [htake]
    simpa using fun hrel => absurd (hdata _ hrel) (by decide))
  rw [htake, List.foldl_append] at hpins'
  have hlow : (([MicroOp.cs false] ++ body).foldl latchStep (true, false, s.block.mosiQ)).1 = false := by
    rw [List.foldl_append, foldl_latchStep_of_dataOps hdata]
    rfl
  have hcsN : (pins u.block).csN = .low := by
    rw [hpins, drivenPins, hlow]
    rfl
  have hcsN' : (pins v.block).csN = .high := by rw [hpins']; rfl
  have hcompleted := (selectEnd_eq_of_ends hcsN (t := v) (by simp [hcsN'])).2 hr
  have hbits := bitsOver_append selectedPins (true, false, s.block.mosiQ) ([.cs false] ++ body) [.cs true]
  rw [← selectedBits_step] at hbits
  rw [hfollow, EchoHarness.edge_of_selectEnd_some _ (by simp [hcsN']) hcompleted, hscript, hbits, hpins, hpins']
  rfl

end

/-- After RELEASE the lines are undriven and the slave is one that nothing is known of. -/
theorem follow_release {s : State} {rest : List EdgeInput} (h : s.Inv) (hs : s.Ready)
    (hport : s.port = .access (.write .cmd (encode .release)) :: rest) (hrest : noReset rest) (regs : Vector Byte 64) :
    ∃ heard, EchoHarness.follow ⟨.holding regs, []⟩ (1 + scriptLength .release * s.params.stepCycles) s =
      ⟨.unknown regs heard, []⟩ := by
  obtain ⟨u, v, miso, -, -, hv, hfollow⟩ :=
    follow_last (i := .release) (ops := []) (op := .rel) h hs rfl hport hrest regs rfl (fun _ hop => nomatch hop)
  have hdiv : scriptLength .release * s.params.stepCycles / s.params.stepCycles = 1 :=
    Nat.mul_div_cancel _ (stepCycles_pos s.params)
  have hreleased : v.block.released = true := by
    rw [hv.block, Block.atEdge]
    show ((s.afterAccept .release).block.afterMicro miso
      (scriptLength .release * s.params.stepCycles / s.params.stepCycles)).released = true
    rw [hdiv]
    rfl
  have hz : (pins v.block).csN = .z := congrArg Pins.csN (pins_of_released hreleased)
  exact ⟨_, by rw [hfollow, EchoHarness.edge_of_undriven _ hz, EchoSlave.forget_holding]⟩

/-- Settles O60: a reset is the one edge that cuts; a register command's script is one frame, and the slave hears its
bits. -/
theorem resetCutsTheEchoSlavesTransaction : Obligations.ResetCutsTheEchoSlavesTransaction := by
  refine ⟨fun s presented h hin hcs => reset_cuts h hin hcs, fun s t hcut => ?_,
    fun s t _ _ hr hlow hend => (selectEnd_eq_of_ends hlow hend).2 hr, fun s t h hstep hcompleted => ?_,
    fun s t before heard bits => edge_of_unknown before heard bits s t,
    fun s i rest regs g h hs hwf hport hrest hg => ?_⟩
  · obtain ⟨-, ⟨hin, -⟩ | ⟨-, hne⟩⟩ := edge_of_selectEnd hcut
    · exact hin
    · cases hne
  · obtain ⟨⟨hlow, hend⟩, ⟨-, hne⟩ | ⟨hr, -⟩⟩ := edge_of_selectEnd hcompleted
    · cases hne
    · exact ⟨hr, completes_of_selectEnd h hr hstep hlow hend⟩
  · subst hg
    cases i with
    | sendByte d =>
      refine (follow_dataOps h hs hwf hport hrest regs (dataOps_sendBits d)).trans ?_
      exact congrArg _ (bitsOver_sendByteScript d s.block.mosiQ).2
    | recvByte =>
      have hdata : DataOps recvByteScript := recvByteScript_eq_slotOps ▸ dataOps_slotOps 1
      exact (follow_dataOps h hs hwf hport hrest regs hdata).trans (congrArg _ (bitsOver_recvByteScript s.block.mosiQ))
    | writeReg a d =>
      have hdata := (dataOps_sendBits (writeAddressByte a)).append (dataOps_sendBits d)
      refine (follow_frame h hs hwf hport hrest regs hdata (writeRegScript_eq_frame a d)).trans ?_
      rw [fieldsOf, script_writeReg, bitsOver_writeRegScript, hear_writeReg]
    | readRegs a n =>
      have hn : n.toNat ≤ 8 := of_decide_eq_true hwf
      have hdata := (dataOps_sendBits (readAddressByte a)).append (dataOps_slotOps n.toNat)
      refine (follow_frame h hs hwf hport hrest regs hdata (readRegsScript_eq_frame a n)).trans ?_
      rw [fieldsOf, script_readRegs, bitsOver_readRegsScript a hn, hear_readRegs]
    | release => exact follow_release h hs hport hrest regs

end Sys2Proof.Machine
end
